-- ==== Sys2Proof/Word.lean ====
section
/-! DEFINITION. The word types of NPE (`00_scope.md` rule R11): unsigned 8-, 16- and 32-bit values. -/

namespace Sys2Proof

/-- `u8`, and one byte of a frame or a command. -/
abbrev Byte := BitVec 8

/-- `u16`; the two signed scalars `HLEN` and `DLEN` are read through `BitVec.toInt`. -/
abbrev U16 := BitVec 16

/-- `u32`: TCP sequence and acknowledgment numbers. -/
abbrev U32 := BitVec 32

end Sys2Proof
end

