-- ==== Sys2Proof/Config.lean ====
section
/-! DEFINITION. The parameters of an NPE instance (`00_scope.md` rule R8) and the free values: what the
spec leaves to the environment, as constants without a body. -/

namespace Sys2Proof

/-- `ACC_W`, the width of the checksum's running sum (R8, R33, decision D2). R146 shows that no sum a command can ask for
overflows 32 bits, and one overflows 31: so a width is at least 32, as R143's "none overflows" needs. DEDUCED (log 4). -/
abbrev AccW := { n : Nat // 32 ≤ n }

/-- `CAP`, the capacity of the Packet Buffer: open, but `58 <= CAP <= 65535` holds for every instance
(R8, decision D37), so the bound is part of the type. -/
abbrev Cap := { n : Nat // 58 ≤ n ∧ n ≤ 65535 }

/-- What `RES` receives from `SES.DERIVE`, on which two rules of the spec disagree and no entry of `90_conflicts.md` decides. -/
inductive DeriveResult
  /-- R251: `RES <- DLEN`. -/
  | dataLength
  /-- The last item of R30: "the number of bytes it sent (0 if it sent nothing)", here 0. -/
  | bytesSent
  deriving DecidableEq, Repr

/-- The parameters of R8 with R8's defaults, and which of two rules an instance follows where the spec has both. No operation
changes them. A statement about every state holds for every value of them. DESIGN CHOICE (log 4): the defaults, `CAP = 251`
among them. -/
structure Config where
  /-- `CAP`. -/
  cap : Cap := ⟨251, by decide⟩
  /-- `UDP_MAX`, the cap on UDP reply payload bytes. -/
  udpMax : Nat := 220
  /-- `MSS`, the value of the TCP maximum-segment-size option. -/
  mss : U16 := 1408#16
  /-- `ARP_MIN`, the least frame length `is_arp_for_me` accepts. -/
  arpMin : Nat := 41
  /-- `IP4_MIN`, the least frame length `is_ipv4_for_me` accepts. -/
  ip4Min : Nat := 42
  /-- `SEQ_STEP`, the increment of the sequence seed per new exchange. -/
  seqStep : Byte := 2#8
  /-- `PROTO_TCP`, added by pseudo-header injection (log 16). -/
  protoTcp : Byte := 6#8
  /-- `PROTO_UDP`, added by pseudo-header injection (log 16). -/
  protoUdp : Byte := 17#8
  /-- `ACC_W`, the width in bits of `SUM`. -/
  accW : AccW := ⟨32, by decide⟩
  /-- `SEQ_RESET`: open, R8 suggests 0x0A. DESIGN CHOICE (log 1). -/
  seqReset : Byte := 0x0A#8
  /-- `IPID_RESET`: open, R8 suggests 1. DESIGN CHOICE (log 1). -/
  ipidReset : U16 := 1#16
  /-- `P_IP_NORMALISE`: whether `IpFinish` also rewrites flags/fragment and TTL (decision D12). -/
  ipNormalise : Bool := false
  /-- `P_CLIENT_WINDOW`, the TCP window written by `TCP.CLIENT`; its default follows `CAP`. -/
  clientWindow : U16 := BitVec.ofNat 16 (cap.val - 54)
  /-- `P_CLIENT_TTL`, the TTL written by `TCP.CLIENT`. -/
  clientTtl : Byte := 64#8
  /-- Not of R8: whether `RES` after `SES.DERIVE` follows R251 or the last item of R30. DESIGN CHOICE (log 20): the default is R251,
  the rule of the operation itself. -/
  deriveResult : DeriveResult := .dataLength
  deriving DecidableEq, Repr

/-- FREE VALUE. The byte at an offset of the Packet Buffer that nothing has written since reset: "a model
treats its value as a free input, never as zero" (R45, R321, U6; log 3). -/
opaque Config.resetByte : Nat → Byte

/-- FREE VALUE. What the Application Handler answers to a request: any byte string (R308, U24; log 10). -/
opaque Config.appHandler : List Byte → List Byte

/-- FREE VALUE. What the link-layer device hands over, given `CAP`, of a frame longer than `CAP`: "a device that has a
longer frame truncates or discards it, and what it does is outside NPE" (R305, U10; log 9). -/
opaque Config.deviceFrame : Nat → List Byte → List Byte

end Sys2Proof
end

