-- ==== Sys2Proof/Syntax.lean ====
section
/-! DEFINITION. The operations of NPE as data: one constructor of `Instr` per row of the opcode table
(`30_encoding.md` rules R121, R122). -/

namespace Sys2Proof

/-- A MAC address, `b0` first on the wire (R20, R68). -/
structure Mac where
  b0 : Byte
  b1 : Byte
  b2 : Byte
  b3 : Byte
  b4 : Byte
  b5 : Byte
  deriving DecidableEq, Repr

/-- An IPv4 address, `b0` first on the wire (R20, R68). -/
structure Ip4 where
  b0 : Byte
  b1 : Byte
  b2 : Byte
  b3 : Byte
  deriving DecidableEq, Repr

/-- The `kind` argument of the Checksum Engine (R140). -/
inductive Kind where
  | ip
  | udp
  | tcp
  deriving DecidableEq, Repr

/-- The operand formats of R121. -/
inductive Format where
  | Z | L | K | I | A | U | F | C
  deriving DecidableEq, Repr

/-- The mnemonics of R122, in the order of the opcode table. -/
inductive Op where
  | init | cksumIp | cksumUdp | cksumTcp | clsArp | clsIp4 | clsArprply | arpReply | arpReq | icmpReply
  | udpReply | tcpSynack | tcpAck | tcpAckdata | tcpClient | fill | sesDerive | sesPoff | dispatch | recv
  deriving DecidableEq, Repr

/-- A decoded operation with its operands (R121, R122). The count operand `n` of formats `U` and `F` is the
length of the byte string; `ctl` of format `C` is its two defined bits (R121; log 14). -/
inductive Instr where
  /-- `INIT mac, ip, port` (R261). -/
  | init (mac : Mac) (ip : Ip4) (port : Byte)
  /-- `CKSUM.IP off, len` (R150). -/
  | cksumIp (off len : U16)
  /-- `CKSUM.UDP off, len` (R151). -/
  | cksumUdp (off len : U16)
  /-- `CKSUM.TCP off, len` (R152). -/
  | cksumTcp (off len : U16)
  /-- `CLS.ARP len` (R161). -/
  | clsArp (len : U16)
  /-- `CLS.IP4 len` (R162). -/
  | clsIp4 (len : U16)
  /-- `CLS.ARPRPLY` (R163). -/
  | clsArprply
  /-- `ARP.REPLY` (R185). -/
  | arpReply
  /-- `ARP.REQ dmac, tip` (R186). -/
  | arpReq (dmac : Mac) (tip : Ip4)
  /-- `ICMP.REPLY len` (R190). -/
  | icmpReply (len : U16)
  /-- `UDP.REPLY sport, data` (R200). -/
  | udpReply (sport : U16) (data : List Byte)
  /-- `TCP.SYNACK` (R220). -/
  | tcpSynack
  /-- `TCP.ACK` (R225). -/
  | tcpAck
  /-- `TCP.ACKDATA dlen` (R230). -/
  | tcpAckdata (dlen : U16)
  /-- `TCP.CLIENT dmac, dip, dport, sport, flags, ctl, ackadv, dlen` (R235); `mss` is `ctl[0]`, `clrack` is `ctl[1]`. -/
  | tcpClient (dmac : Mac) (dip : Ip4) (dport sport : U16) (flags : Byte) (mss clrack : Bool) (ackadv dlen : U16)
  /-- `FILL pos, text` (R240). -/
  | fill (pos : U16) (text : List Byte)
  /-- `SES.DERIVE` (R251). -/
  | sesDerive
  /-- `SES.POFF` (R253). -/
  | sesPoff
  /-- `DISPATCH` (R270). -/
  | dispatch
  /-- `RECV` (R265). -/
  | recv
  deriving DecidableEq, Repr

end Sys2Proof
end

