-- ==== Sys2Proof/Machine/Operands.lean ====
section
/-! DEFINITION. Operand forms: byte order of multi-byte values and the byte strings of addresses
(`00_scope.md` rule R11, `20_memory.md` rules R64, R65, R68; `30_encoding.md` rule R121). -/

namespace Sys2Proof

/-- `hi(v) = v[15:8]` (R11). -/
def hi (v : U16) : Byte := v.extractLsb' 8 8

/-- `lo(v) = v[7:0]` (R11). -/
def lo (v : U16) : Byte := v.extractLsb' 0 8

/-- A 16-bit big-endian value: `a` is the more significant byte (R64, R68). -/
def be16 (a b : Byte) : U16 := a ++ b

/-- A 32-bit big-endian value: `a` is the most significant byte (R64, R68). -/
def be32 (a b c d : Byte) : U32 := be16 a b ++ be16 c d

/-- The bytes of a `u16` in the order they stand in the buffer (R65). -/
def bytes16 (v : U16) : List Byte := [hi v, lo v]

/-- The bytes of a `u32` in the order they stand in the buffer (R65). -/
def bytes32 (v : U32) : List Byte :=
  [v.extractLsb' 24 8, v.extractLsb' 16 8, v.extractLsb' 8 8, v.extractLsb' 0 8]

/-- `MAC[0], ..., MAC[5]` (R68). -/
def Mac.bytes (m : Mac) : List Byte := [m.b0, m.b1, m.b2, m.b3, m.b4, m.b5]

/-- `IP[0], ..., IP[3]` (R68). -/
def Ip4.bytes (p : Ip4) : List Byte := [p.b0, p.b1, p.b2, p.b3]

/-- A count or length as the `u16` that carries it (R67: only used below 2^16). -/
def u16 (n : Nat) : U16 := BitVec.ofNat 16 n

end Sys2Proof
end

