-- ==== Sys2Proof/WellFormed.lean ====
section
/-! DEFINITION. Which operations a command can carry: the byte string of formats `U` and `F` is counted by a
`u16` (`30_encoding.md` rule R121). Every other operand is bounded by its type. -/

namespace Sys2Proof

/-- The count operand `n` is a `u16` (R121). -/
def countFits (bytes : List Byte) : Bool := decide (bytes.length < 65536)

/-- An operation some command encodes (R121, R125). -/
def Instr.wellFormed : Instr → Bool
  | .init _ _ _ => true
  | .cksumIp _ _ => true
  | .cksumUdp _ _ => true
  | .cksumTcp _ _ => true
  | .clsArp _ => true
  | .clsIp4 _ => true
  | .clsArprply => true
  | .arpReply => true
  | .arpReq _ _ => true
  | .icmpReply _ => true
  | .udpReply _ data => countFits data
  | .tcpSynack => true
  | .tcpAck => true
  | .tcpAckdata _ => true
  | .tcpClient _ _ _ _ _ _ _ _ _ => true
  | .fill _ text => countFits text
  | .sesDerive => true
  | .sesPoff => true
  | .dispatch => true
  | .recv => true

end Sys2Proof
end

