-- ==== Sys2Proof/Decode.lean ====
section
/-! DEFINITION. The command encoding (`30_encoding.md` rules R120 to R125): a total decoder that rejects by name, the
encoder, and the host's numbering of an instruction's bits. -/

namespace Sys2Proof

/-! ### The opcode map (R122) -/

/-- The opcode byte of a mnemonic (R122). -/
def Op.byte : Op → Byte
  | .init => 0x00#8
  | .cksumIp => 0x10#8
  | .cksumUdp => 0x11#8
  | .cksumTcp => 0x12#8
  | .clsArp => 0x20#8
  | .clsIp4 => 0x21#8
  | .clsArprply => 0x22#8
  | .arpReply => 0x30#8
  | .arpReq => 0x31#8
  | .icmpReply => 0x32#8
  | .udpReply => 0x33#8
  | .tcpSynack => 0x40#8
  | .tcpAck => 0x41#8
  | .tcpAckdata => 0x42#8
  | .tcpClient => 0x43#8
  | .fill => 0x44#8
  | .sesDerive => 0x50#8
  | .sesPoff => 0x51#8
  | .dispatch => 0x60#8
  | .recv => 0x61#8

/-- The operand format of a mnemonic (R121, R122). -/
def Op.format : Op → Format
  | .init => .I
  | .cksumIp => .K
  | .cksumUdp => .K
  | .cksumTcp => .K
  | .clsArp => .L
  | .clsIp4 => .L
  | .clsArprply => .Z
  | .arpReply => .Z
  | .arpReq => .A
  | .icmpReply => .L
  | .udpReply => .U
  | .tcpSynack => .Z
  | .tcpAck => .Z
  | .tcpAckdata => .L
  | .tcpClient => .C
  | .fill => .F
  | .sesDerive => .Z
  | .sesPoff => .Z
  | .dispatch => .Z
  | .recv => .Z

/-- The twenty rows of the opcode table. -/
def Op.table : List Op :=
  [.init, .cksumIp, .cksumUdp, .cksumTcp, .clsArp, .clsIp4, .clsArprply, .arpReply, .arpReq, .icmpReply,
   .udpReply, .tcpSynack, .tcpAck, .tcpAckdata, .tcpClient, .fill, .sesDerive, .sesPoff, .dispatch, .recv]

/-- The mnemonic of an opcode byte, none where the byte is reserved (R122, R124). -/
def Op.ofByte (b : Byte) : Option Op := Op.table.find? (fun o => o.byte == b)

/-- The length of a command in bytes, the opcode byte included; `n` is the `u16` at command bytes 3 and 4
(R125). -/
def Format.length (f : Format) (n : Nat) : Nat :=
  match f with
  | .Z => 1
  | .L => 3
  | .K => 5
  | .I => 12
  | .A => 11
  | .U => 5 + n
  | .F => 5 + n
  | .C => 21

/-! ### Operand bytes -/

/-- Format `Z`: no operand bytes (R121). -/
def readZ : List Byte → Option Unit
  | [] => some ()
  | _ :: _ => none

/-- Format `L`: `len:u16` (R121). -/
def readL : List Byte → Option U16
  | [a, b] => some (be16 a b)
  | _ => none

/-- Format `K`: `off:u16, len:u16` (R121). -/
def readK : List Byte → Option (U16 × U16)
  | [a, b, c, d] => some (be16 a b, be16 c d)
  | _ => none

/-- Format `I`: `mac:mac, ip:ip4, port:u8` (R121). -/
def readI : List Byte → Option (Mac × Ip4 × Byte)
  | [a, b, c, d, e, f, p, q, r, s, t] => some (⟨a, b, c, d, e, f⟩, ⟨p, q, r, s⟩, t)
  | _ => none

/-- Format `A`: `dmac:mac, tip:ip4` (R121). -/
def readA : List Byte → Option (Mac × Ip4)
  | [a, b, c, d, e, f, p, q, r, s] => some (⟨a, b, c, d, e, f⟩, ⟨p, q, r, s⟩)
  | _ => none

/-- Formats `U` and `F`: a `u16`, the count `n:u16`, then exactly `n` bytes (R121, R124). -/
def readCounted : List Byte → Option (U16 × List Byte)
  | a :: b :: c :: d :: bytes => if bytes.length = (be16 c d).toNat then some (be16 a b, bytes) else none
  | _ => none

/-- The operands of format `C`, `ctl` still as its byte (R121). -/
structure ClientArgs where
  dmac : Mac
  dip : Ip4
  dport : U16
  sport : U16
  flags : Byte
  ctl : Byte
  ackadv : U16
  dlen : U16
  deriving DecidableEq, Repr

/-- Format `C`: twenty operand bytes (R121, conflict C16). -/
def readC : List Byte → Option ClientArgs
  | [a, b, c, d, e, f, p, q, r, s, dp1, dp0, sp1, sp0, fl, ctl, aa1, aa0, dl1, dl0] =>
    some { dmac := ⟨a, b, c, d, e, f⟩, dip := ⟨p, q, r, s⟩, dport := be16 dp1 dp0, sport := be16 sp1 sp0,
           flags := fl, ctl := ctl, ackadv := be16 aa1 aa0, dlen := be16 dl1 dl0 }
  | _ => none

/-- Bits 7 to 2 of `ctl` are reserved and must be 0 (R121, R124). -/
def ctlReserved (ctl : Byte) : Bool := ctl.extractLsb' 2 6 != 0#6

/-- `ctl` from its two defined bits: bit 0 `MSS`, bit 1 `CLRACK` (R121). -/
def ctlByte (mss clrack : Bool) : Byte := 0#6 ++ BitVec.ofBool clrack ++ BitVec.ofBool mss

/-! ### The decoder -/

/-- Why a command is illegal (R124). Each of these makes the engine raise `IllegalCommand`. -/
inductive DecodeError where
  /-- The empty byte string has no opcode byte. -/
  | emptyCommand
  /-- The opcode byte is not in the table of R122. -/
  | reservedOpcode (b : Byte)
  /-- The length is not the one the opcode's format requires (R125). -/
  | wrongLength (o : Op)
  /-- A reserved bit of `ctl` is 1. -/
  | reservedCtl (ctl : Byte)
  deriving DecidableEq, Repr

/-- The operation named by a mnemonic and its operand bytes (R121, R124). -/
def decodeOperands (o : Op) (args : List Byte) : Except DecodeError Instr :=
  let orLength (x : Option Instr) : Except DecodeError Instr := x.elim (.error (.wrongLength o)) .ok
  match o with
  | .init => orLength ((readI args).map fun x => .init x.1 x.2.1 x.2.2)
  | .cksumIp => orLength ((readK args).map fun x => .cksumIp x.1 x.2)
  | .cksumUdp => orLength ((readK args).map fun x => .cksumUdp x.1 x.2)
  | .cksumTcp => orLength ((readK args).map fun x => .cksumTcp x.1 x.2)
  | .clsArp => orLength ((readL args).map .clsArp)
  | .clsIp4 => orLength ((readL args).map .clsIp4)
  | .clsArprply => orLength ((readZ args).map fun _ => .clsArprply)
  | .arpReply => orLength ((readZ args).map fun _ => .arpReply)
  | .arpReq => orLength ((readA args).map fun x => .arpReq x.1 x.2)
  | .icmpReply => orLength ((readL args).map .icmpReply)
  | .udpReply => orLength ((readCounted args).map fun x => .udpReply x.1 x.2)
  | .tcpSynack => orLength ((readZ args).map fun _ => .tcpSynack)
  | .tcpAck => orLength ((readZ args).map fun _ => .tcpAck)
  | .tcpAckdata => orLength ((readL args).map .tcpAckdata)
  | .tcpClient =>
    match readC args with
    | none => .error (.wrongLength o)
    | some x =>
      if ctlReserved x.ctl then .error (.reservedCtl x.ctl)
      else .ok (.tcpClient x.dmac x.dip x.dport x.sport x.flags (x.ctl.getLsbD 0) (x.ctl.getLsbD 1) x.ackadv x.dlen)
  | .fill => orLength ((readCounted args).map fun x => .fill x.1 x.2)
  | .sesDerive => orLength ((readZ args).map fun _ => .sesDerive)
  | .sesPoff => orLength ((readZ args).map fun _ => .sesPoff)
  | .dispatch => orLength ((readZ args).map fun _ => .dispatch)
  | .recv => orLength ((readZ args).map fun _ => .recv)

/-- The decoder, total: every byte string decodes to one operation or is illegal by name (R120, R124). -/
def decode : List Byte → Except DecodeError Instr
  | [] => .error .emptyCommand
  | b :: args =>
    match Op.ofByte b with
    | none => .error (.reservedOpcode b)
    | some o => decodeOperands o args

/-! ### The encoder -/

/-- The mnemonic of an operation. -/
def Instr.op : Instr → Op
  | .init _ _ _ => .init
  | .cksumIp _ _ => .cksumIp
  | .cksumUdp _ _ => .cksumUdp
  | .cksumTcp _ _ => .cksumTcp
  | .clsArp _ => .clsArp
  | .clsIp4 _ => .clsIp4
  | .clsArprply => .clsArprply
  | .arpReply => .arpReply
  | .arpReq _ _ => .arpReq
  | .icmpReply _ => .icmpReply
  | .udpReply _ _ => .udpReply
  | .tcpSynack => .tcpSynack
  | .tcpAck => .tcpAck
  | .tcpAckdata _ => .tcpAckdata
  | .tcpClient _ _ _ _ _ _ _ _ _ => .tcpClient
  | .fill _ _ => .fill
  | .sesDerive => .sesDerive
  | .sesPoff => .sesPoff
  | .dispatch => .dispatch
  | .recv => .recv

/-- A `u16` operand, the byte string's count `n`, and the bytes (formats `U` and `F`, R121). -/
def countedBytes (x : U16) (bytes : List Byte) : List Byte := bytes16 x ++ bytes16 (u16 bytes.length) ++ bytes

/-- The operand bytes after the opcode (R121). -/
def Instr.operandBytes : Instr → List Byte
  | .init mac ip port => mac.bytes ++ ip.bytes ++ [port]
  | .cksumIp off len => bytes16 off ++ bytes16 len
  | .cksumUdp off len => bytes16 off ++ bytes16 len
  | .cksumTcp off len => bytes16 off ++ bytes16 len
  | .clsArp len => bytes16 len
  | .clsIp4 len => bytes16 len
  | .clsArprply => []
  | .arpReply => []
  | .arpReq dmac tip => dmac.bytes ++ tip.bytes
  | .icmpReply len => bytes16 len
  | .udpReply sport data => countedBytes sport data
  | .tcpSynack => []
  | .tcpAck => []
  | .tcpAckdata dlen => bytes16 dlen
  | .tcpClient dmac dip dport sport flags mss clrack ackadv dlen =>
    dmac.bytes ++ dip.bytes ++ bytes16 dport ++ bytes16 sport ++ [flags, ctlByte mss clrack] ++ bytes16 ackadv ++ bytes16 dlen
  | .fill pos text => countedBytes pos text
  | .sesDerive => []
  | .sesPoff => []
  | .dispatch => []
  | .recv => []

/-- The command that carries an operation (R120, R121). -/
def encode (i : Instr) : List Byte := i.op.byte :: i.operandBytes

/-! ### The host's numbering of an instruction's bits -/

/-- Byte `k` of an instruction of `nbits` bits numbered from its first byte up: bits `8k+7..8k` of `w`; every bit
above `nbits` is 0. -/
def tableByte (nbits w k : Nat) : Byte := BitVec.ofNat 8 ((w % 2 ^ nbits) >>> (8 * k))

/-- The command whose bits are `w`: as many bytes as the opcode's format requires (R125), or the `nbits / 8` bytes
given where the opcode is reserved (log 19). -/
def tableBytes (nbits w : Nat) : List Byte :=
  let len :=
    match Op.ofByte (tableByte nbits w 0) with
    | none => nbits / 8
    | some o => o.format.length (be16 (tableByte nbits w 3) (tableByte nbits w 4)).toNat
  (List.range len).map (tableByte nbits w)

/-- The operation the decoder reads from the instruction whose bits are `w`. -/
def decodeTableWord (nbits w : Nat) : Option Instr :=
  match decode (tableBytes nbits w) with
  | .ok i => some i
  | .error _ => none

end Sys2Proof
end

