-- ==== Sys2Proof/Machine/State.lean ====
section
/-! DEFINITION. The state of NPE (`10_state.md` rules R20 to R37, R45): plain data, the reasons a step could stop, and
the machine right after reset. -/

namespace Sys2Proof.Machine

/-- The Packet Buffer `BUF` (R34): the bytes written so far, as (offset, byte) pairs. An offset that is not listed has no
stored value: nothing has written it since reset, and it reads as the free value `Config.resetByte` (R45; log 3). -/
abbrev Memory := List Host.Cell

/-- The canonical form: offsets strictly rising, so that an offset is listed at most once. -/
abbrev Memory.wf (m : Memory) : Prop := m.Pairwise (fun x y => x.1 < y.1)

/-- The six faults of R291. They are recorded in `FAULT` by a NEXT state (R292): no step of this model answers
`Outcome.fault`, because the spec describes both the entry into a fault and what every later command does (R293; log 7).
Recording them is safe: after a fault every command is refused and nothing changes. -/
inductive Fault where
  /-- Code 1. Raised by the decoder: reserved opcode, wrong length, reserved `ctl` bit (R124). Safe. -/
  | illegalCommand
  /-- Code 2. Raised by every operation but `INIT` while `INITED = 0` (R28). Safe. -/
  | notInitialised
  /-- Code 3. Raised by `INIT` while `INITED = 1` (R28). Safe. -/
  | alreadyInitialised
  /-- Code 4. Raised where an operation would access `BUF` at an offset `>= CAP` or send more than `CAP` bytes (R61). Safe. -/
  | bufferBounds
  /-- Code 5. Raised by `CKSUM.UDP`, `CKSUM.TCP` with `len < 8` and `ICMP.REPLY` with `len = 0`. Safe. -/
  | badOperand
  /-- Code 6. Raised by `SES.POFF` and `TCP.ACK` while `SESV = 0` (R24). Safe. -/
  | staleSession
  deriving DecidableEq, Repr

/-- Reasons for giving an instruction no meaning. -/
inductive Refusal where
  /-- Answered by `exec`'s arm of an instruction without a meaning; no arm does. Safe. -/
  | notModelled (mnemonic : String)
  deriving DecidableEq, Repr

/-- The whole state. The fields from `buf` to `txlog` are the architectural state of R20; the others are the model's own
(the instance's parameters and the data that crosses the engine's boundary). -/
structure State where
  /-- The parameters of the instance (R8; log 4). No step changes them. -/
  cfg : Config
  /-- `BUF`. -/
  buf : Memory
  /-- `MAC[0..5]`. -/
  mac : Mac
  /-- `IP[0..3]`. -/
  ip : Ip4
  /-- `PORT`. -/
  port : Byte
  /-- `IPID`. -/
  ipid : U16
  /-- `SEQ`. -/
  seq : Byte
  /-- `HLEN`, signed. -/
  hlen : U16
  /-- `DLEN`, signed. -/
  dlen : U16
  /-- `SUM`, the checksum accumulator (log 11): the number an `ACC_W`-bit register holds, reduced modulo `2^ACC_W` wherever it is
  written. The width is the instance's, so it stands in `cfg`, not in the type. -/
  sum : Nat
  /-- `INITED`. -/
  inited : Bool
  /-- `SESV`. -/
  sesv : Bool
  /-- `RXLEN`. -/
  rxlen : U16
  /-- `RES`. -/
  res : U16
  /-- `FAULT`. -/
  fault : Byte
  /-- `TXLOG`: every frame handed to `send_frame`, oldest first. -/
  txlog : List (List Byte)
  /-- The link layer's input stream, next frame first; the empty string means "none available" (R305; log 8). -/
  rx : List (List Byte)
  /-- Commands the host has presented and the engine has not taken, next first (R120; log 5). -/
  cmds : List (List Byte)
  /-- The three-byte responses given, oldest first (R123; log 5). -/
  resps : List (List Byte)
  /-- What the Application Handler answers to the requests listed; to any other it answers `Config.appHandler`
  (R308; log 10). No step changes it. -/
  handler : List (List Byte × List Byte)
  /-- Every request handed to the Application Handler, oldest first (R308; log 10). -/
  reqlog : List (List Byte)
  deriving DecidableEq, Repr

/-- The machine right after reset (R45, R320) for an instance's parameters. DESIGN CHOICE, unsafe (log 2): zero in `MAC`,
`IP`, `PORT`, `HLEN`, `DLEN` and `SUM`, which the spec leaves unspecified and no operation reads before writing. DESIGN CHOICE,
unsafe (log 8): no frame waits at the link layer, where the spec leaves the device's frames to the device (R305) and says
that reset does not touch it (R321). DESIGN CHOICE (logs 5, 10): no command is waiting, and the handler's table lists nothing,
so that every answer is the free value. -/
def State.resetWith (cfg : Config) : State where
  cfg := cfg
  buf := []
  mac := ⟨0#8, 0#8, 0#8, 0#8, 0#8, 0#8⟩
  ip := ⟨0#8, 0#8, 0#8, 0#8⟩
  port := 0#8
  ipid := cfg.ipidReset
  seq := cfg.seqReset
  hlen := 0#16
  dlen := 0#16
  sum := 0
  inited := false
  sesv := false
  rxlen := 0#16
  res := 0#16
  fault := 0#8
  txlog := []
  rx := []
  cmds := []
  resps := []
  handler := []
  reqlog := []

/-- The machine right after reset, with the default parameters of R8. DESIGN CHOICE, unsafe (log 1, log 4): the default
configuration, with it `IPID = 1` and `SEQ = 0x0A`, the values R8 suggests for its open parameters. -/
def State.reset : State := State.resetWith {}

end Sys2Proof.Machine
end

