-- ==== Sys2Proof/Machine/Flags.lean ====
section
/-! DEFINITION. The one-bit flags of NPE (`10_state.md` rule R26): the non-zero test of `FAULT` (R31), and the only places
that write `INITED` (R28) and `SESV` (R24). Every other operation leaves them alone. -/

namespace Sys2Proof.Machine

/-- The non-zero test of `FAULT`: the engine refuses every command (R31, R293). -/
def State.faulted (s : State) : Bool := s.fault != 0#8

/-- `INITED <- 1` (R28, R261). -/
def State.setInited (s : State) : State := { s with inited := true }

/-- `SESV <- 1`: `HLEN` and `DLEN` belong to the frame now in `BUF` (R24, R251). -/
def State.setSesv (s : State) : State := { s with sesv := true }

/-- `SESV <- 0`: a new frame was brought into `BUF` (R24, R265). -/
def State.clearSesv (s : State) : State := { s with sesv := false }

/-- A predicate's result in `RES`: 1 (true) or 0 (false) (R30). -/
def boolRes (b : Bool) : U16 := if b then 1#16 else 0#16

end Sys2Proof.Machine
end

