-- ==== Sys2Proof/Machine/Ops.lean ====
section
/-! DEFINITION. The shared operations: access to the Packet Buffer (`20_memory.md` rules R60 to R72), raising a fault and
the order of a command's checks (`60_exceptions.md` rules R291 to R294, `30_encoding.md` rule R126), and the interface
boundary (R305, R306, R308). -/

namespace Sys2Proof.Machine

/-! ### The Packet Buffer -/

/-- The byte stored at an offset, none where nothing was written since reset. -/
def Memory.stored : Memory → Nat → Option Byte
  | [], _ => none
  | (b, v) :: m, a => if a = b then some v else Memory.stored m a

/-- `BUF[a]` (R62): the byte stored, or the free value of an offset nothing has written (R45; log 3). -/
def Memory.rd (m : Memory) (a : Nat) : Byte := (m.stored a).getD (Config.resetByte a)

/-- `BUF[a] <- v` (R63), keeping the list sorted by offset. -/
def Memory.wr : Memory → Nat → Byte → Memory
  | [], a, v => [(a, v)]
  | (b, w) :: m, a, v =>
    if a < b then (a, v) :: (b, w) :: m
    else if a = b then (a, v) :: m
    else (b, w) :: Memory.wr m a v

/-- `BUF[a..] <- bytes`: written at `a, a+1, ...` in ascending order (R12). -/
def Memory.wrBytes (m : Memory) (a : Nat) : List Byte → Memory
  | [] => m
  | v :: bytes => Memory.wrBytes (m.wr a v) (a + 1) bytes

/-- `BUF[a .. a+n-1]` (R12). -/
def Memory.slice (m : Memory) (a n : Nat) : List Byte := (List.range' a n).map m.rd

/-- `Rd16(a)`, most significant byte first (R64). -/
def Memory.rd16 (m : Memory) (a : Nat) : U16 := be16 (m.rd a) (m.rd (a + 1))

/-- `Rd32(a)`, most significant byte first (R64). -/
def Memory.rd32 (m : Memory) (a : Nat) : U32 := be32 (m.rd a) (m.rd (a + 1)) (m.rd (a + 2)) (m.rd (a + 3))

/-- `Wr16(a, v)`, byte writes in ascending order (R65). -/
def Memory.wr16 (m : Memory) (a : Nat) (v : U16) : Memory := m.wrBytes a (bytes16 v)

/-- `Wr32(a, v)`, byte writes in ascending order (R65). -/
def Memory.wr32 (m : Memory) (a : Nat) (v : U32) : Memory := m.wrBytes a (bytes32 v)

/-- The turn-round of R176, R178 and R185, byte by byte and interleaved as they write it: the destination field receives
the request's source field, the source field receives this node's own bytes (R71, R337). -/
def Memory.turnRound (m : Memory) (dst src : Nat) : List Byte → Memory
  | [] => m
  | own :: rest => Memory.turnRound ((m.wr dst (m.rd src)).wr src own) (dst + 1) (src + 1) rest

/-- Two fields written side by side, interleaved as R177 writes them: the `i`-th bytes of both before the next ones. -/
def Memory.wrPair (m : Memory) (a b : Nat) : List Byte → List Byte → Memory
  | x :: xs, y :: ys => Memory.wrPair ((m.wr a x).wr b y) (a + 1) (b + 1) xs ys
  | [], _ => m
  | _ :: _, [] => m

/-- `CAP` of this instance (R8). -/
def State.cap (s : State) : Nat := s.cfg.cap.val

/-! ### Faults -/

/-- The codes of R291. -/
def Fault.code : Fault → Byte
  | .illegalCommand => 1#8
  | .notInitialised => 2#8
  | .alreadyInitialised => 3#8
  | .bufferBounds => 4#8
  | .badOperand => 5#8
  | .staleSession => 6#8

/-- `raise F` (R292): if `FAULT = 0` it receives the fault's code. `RES` and everything already written stay. There is no
return from a fault (R293). -/
def raise (f : Fault) (s : State) : State := if s.fault = 0#8 then { s with fault := f.code } else s

/-- How an operation's pseudocode ends (R292). -/
inductive Run where
  /-- Completed, with the value the operation delivers. -/
  | done (value : U16) (s : State)
  /-- Stopped at a `raise`; what was written before it is in the state. -/
  | raised (f : Fault) (s : State)
  deriving DecidableEq, Repr

/-- An operation called by another: its value is used locally, its fault is the caller's fault (R270). -/
def Run.andThen (r : Run) (next : U16 → State → Run) : Run :=
  match r with
  | .done v s => next v s
  | .raised f s => .raised f s

/-- The end of a command (R30, R292): `RES` receives the value of an operation that completed, a fault is recorded and
leaves `RES` unchanged. -/
def Run.finish : Run → State
  | .done v s => { s with res := v }
  | .raised f s => raise f s

/-- A command other than `INIT` (R126, R294): refused without any change while `FAULT != 0` (R293), `NotInitialised` while
`INITED = 0` (R28), then the operation. -/
def command (body : State → Run) (s : State) : Host.Outcome State Fault Refusal :=
  if s.faulted then .next s
  else if s.inited then .next (body s).finish
  else .next (raise .notInitialised s)

/-! ### The interface boundary -/

/-- `Send(n)` (R180, R306): a snapshot of `BUF[0..n-1]` is appended to `TXLOG` (R84). -/
def State.send (n : Nat) (s : State) : State := { s with txlog := s.txlog ++ [s.buf.slice 0 n] }

/-- The frame the device delivers for the next element of its input stream: at most `CAP` bytes (R305). Of a longer one
it delivers what it chooses (log 9). -/
def deliverable (cap : Nat) (frame : List Byte) : List Byte :=
  if frame.length ≤ cap then frame else (Config.deviceFrame cap frame).take cap

/-- The frame `LinkReceive` will deliver; an exhausted input stream delivers none (log 8). -/
def State.arriving (s : State) : List Byte := deliverable s.cap (s.rx.headD [])

/-- `n <- LinkReceive(CAP); RXLEN <- n; SESV <- 0` (R265, R270, R305): one element of the input stream is consumed, the
frame replaces `BUF[0..n-1]`, and the bytes from `n` on stay. -/
def State.linkReceive (s : State) : State :=
  State.clearSesv { s with
    buf := s.buf.wrBytes 0 s.arriving
    rx := s.rx.tail
    rxlen := u16 s.arriving.length }

/-- What the Application Handler answers to a request (R308; log 10). -/
def State.answer (s : State) (req : List Byte) : List Byte := (s.handler.lookup req).getD (Config.appHandler req)

/-- The call of the Application Handler hands it the request; it touches neither `BUF` nor any register (R308). -/
def State.logRequest (req : List Byte) (s : State) : State := { s with reqlog := s.reqlog ++ [req] }

end Sys2Proof.Machine
end

