-- ==== Sys2Proof/Machine/Command.lean ====
section
/-! DEFINITION. How a command reaches the engine and how it is answered (`30_encoding.md` rules R120, R123, R126). -/

namespace Sys2Proof.Machine

/-- The engine takes the next command of the host (R120). -/
def State.withCommands (s : State) (rest : List (List Byte)) : State := { s with cmds := rest }

/-- The response to a command: `FAULT`, then `RES` big-endian (R123). -/
def State.respond (s : State) : State := { s with resps := s.resps ++ [s.fault :: bytes16 s.res] }

/-- A command that decodes to nothing (R124, R126, R293): refused without any change while `FAULT != 0`, else
`IllegalCommand` and no other change. -/
def illegal (s : State) : State := if s.faulted then s else raise .illegalCommand s

/-- The answer after an operation: its response, or the reason it stopped. -/
def answered : Host.Outcome State Fault Refusal → Host.Outcome State Fault Refusal
  | .next s => .next s.respond
  | .fault f => .fault f
  | .refused r => .refused r

/-- One command, decoded, checked, executed by `run` and answered (R120, R126). -/
def runCommand (run : Instr → State → Host.Outcome State Fault Refusal) (c : List Byte) (s : State) :
    Host.Outcome State Fault Refusal :=
  match decode c with
  | .ok i => answered (run i s)
  | .error _ => .next (illegal s).respond

/-- The state with a command presented before all others. -/
def State.present (s : State) (c : List Byte) : State := { s with cmds := c :: s.cmds }

end Sys2Proof.Machine
end

