-- ==== Sys2Proof/Machine/Checksum.lean ====
section
/-! DEFINITION. The Checksum Engine (`40_checksum.md` rules R140 to R153): `CKSUM.IP`, `CKSUM.UDP`, `CKSUM.TCP`. -/

namespace Sys2Proof.Machine

/-- `SUM <- SUM + x` in a register of `w` bits (R143). -/
def accAdd (w sum x : Nat) : Nat := (sum + x) % 2 ^ w

/-- Phase 1, pseudo-header injection (R142): what `SUM` starts at. Used with `len >= 8` for `UDP` and `TCP`. -/
def injected (cfg : Config) (kind : Kind) (len : Nat) : Nat :=
  match kind with
  | .ip => 0
  | .udp => accAdd cfg.accW.val 0 (cfg.protoUdp.toNat + (len - 8))
  | .tcp => accAdd cfg.accW.val 0 (cfg.protoTcp.toNat + (len - 8))

/-- Phase 2, summation (R143): big-endian words paired from the first byte of the range, an odd last byte taken as the high
byte of a zero-padded word, added in the `w`-bit register. -/
def sumWords (w sum : Nat) : List Byte → Nat
  | [] => sum
  | [a] => accAdd w sum (be16 a 0#8).toNat
  | a :: b :: rest => sumWords w (accAdd w sum (be16 a b).toNat) rest

/-- Phase 3, fold (R144): the high part above 16 bits is added into the low 16 bits while there is a carry, at most `passes`
times. -/
def foldSum : Nat → Nat → Nat
  | 0, sum => sum
  | passes + 1, sum => if sum / 65536 = 0 then sum else foldSum passes (sum % 65536 + sum / 65536)

/-- `SUM` after phases 1 to 3 over a byte range. "The loop runs at most twice" (R144). -/
def foldedSum (cfg : Config) (kind : Kind) (bytes : List Byte) : Nat :=
  foldSum 2 (sumWords cfg.accW.val (injected cfg kind bytes.length) bytes)

/-- Phase 4, complement (R145): the NOT of the low 16 bits. -/
def ckOf (sum : Nat) : U16 := ~~~(BitVec.ofNat 16 sum)

/-- The checksum of a byte range (R140). -/
def checksum (cfg : Config) (kind : Kind) (bytes : List Byte) : U16 := ckOf (foldedSum cfg kind bytes)

/-- `SUM` as `Cksum(kind, off, len)` leaves it (R141 to R144). -/
def Memory.sumOf (m : Memory) (cfg : Config) (kind : Kind) (off len : Nat) : Nat :=
  foldedSum cfg kind (m.slice off len)

/-- `ck <- Cksum(kind, off, len); Wr16(field, ck)`: how every transcoder stores a checksum (R153). -/
def Memory.storeCksum (m : Memory) (cfg : Config) (kind : Kind) (off len field : Nat) : Memory :=
  m.wr16 field (ckOf (m.sumOf cfg kind off len))

/-- `RES <- Cksum(kind, off, len)` with its checks (R141, R142, R294): `BadOperand` before `BufferBounds`, both before
anything is read or written. -/
def opCksum (kind : Kind) (off len : U16) (s : State) : Run :=
  if kind ≠ .ip ∧ len.toNat < 8 then .raised .badOperand s
  else if 0 < len.toNat ∧ s.cap < off.toNat + len.toNat then .raised .bufferBounds s
  else
    let sum := s.buf.sumOf s.cfg kind off.toNat len.toNat
    .done (ckOf sum) { s with sum := sum }

/-- `CKSUM.IP off, len` (R150). -/
def execCksumIp (off len : U16) (s : State) : Host.Outcome State Fault Refusal := command (opCksum .ip off len) s

/-- `CKSUM.UDP off, len` (R151). -/
def execCksumUdp (off len : U16) (s : State) : Host.Outcome State Fault Refusal := command (opCksum .udp off len) s

/-- `CKSUM.TCP off, len` (R152). -/
def execCksumTcp (off len : U16) (s : State) : Host.Outcome State Fault Refusal := command (opCksum .tcp off len) s

end Sys2Proof.Machine
end

