-- ==== Sys2Proof/Machine/Schema.lean ====
section
/-! DEFINITION. The Byte-Offset Schema (`30_encoding.md` rules R90 to R99): field name to byte offset from the start of
the buffer, and the constants of the wire formats, the fields NPE never looks at among them. The offsets are the spec's own, which it marks as taken from the
standards its source makes normative (R90; log 12). -/

namespace Sys2Proof.Machine

/-! ### Ethernet II (R91) -/

@[simp] abbrev ETH_DST : Nat := 0
@[simp] abbrev ETH_SRC : Nat := 6
@[simp] abbrev ETH_TYPE : Nat := 12

/-! ### ARP (R92) -/

@[simp] abbrev ARP_HTYPE : Nat := 14
@[simp] abbrev ARP_PTYPE : Nat := 16
@[simp] abbrev ARP_HLEN : Nat := 18
@[simp] abbrev ARP_PLEN : Nat := 19
@[simp] abbrev ARP_OPER : Nat := 20
@[simp] abbrev ARP_SHA : Nat := 22
@[simp] abbrev ARP_SPA : Nat := 28
@[simp] abbrev ARP_THA : Nat := 32
@[simp] abbrev ARP_TPA : Nat := 38

/-! ### IPv4 without options (R93) -/

@[simp] abbrev IP_VIHL : Nat := 14
@[simp] abbrev IP_TOS : Nat := 15
@[simp] abbrev IP_TOTLEN : Nat := 16
@[simp] abbrev IP_ID : Nat := 18
@[simp] abbrev IP_FRAG : Nat := 20
@[simp] abbrev IP_TTL : Nat := 22
@[simp] abbrev IP_PROTO : Nat := 23
@[simp] abbrev IP_CSUM : Nat := 24
@[simp] abbrev IP_SRC : Nat := 26
@[simp] abbrev IP_DST : Nat := 30

/-! ### ICMP echo (R94) -/

@[simp] abbrev ICMP_TYPE : Nat := 34
@[simp] abbrev ICMP_CODE : Nat := 35
@[simp] abbrev ICMP_CSUM : Nat := 36
@[simp] abbrev ICMP_REST : Nat := 38
@[simp] abbrev ICMP_DATA : Nat := 42

/-! ### UDP (R95) -/

@[simp] abbrev UDP_SPORT : Nat := 34
@[simp] abbrev UDP_DPORT : Nat := 36
@[simp] abbrev UDP_LEN : Nat := 38
@[simp] abbrev UDP_CSUM : Nat := 40
@[simp] abbrev UDP_DATA : Nat := 42

/-! ### TCP (R96) -/

@[simp] abbrev TCP_SPORT : Nat := 34
@[simp] abbrev TCP_DPORT : Nat := 36
@[simp] abbrev TCP_SEQ : Nat := 38
@[simp] abbrev TCP_ACK : Nat := 42
@[simp] abbrev TCP_HLEN : Nat := 46
@[simp] abbrev TCP_FLAGS : Nat := 47
@[simp] abbrev TCP_WIN : Nat := 48
@[simp] abbrev TCP_CSUM : Nat := 50
@[simp] abbrev TCP_URG : Nat := 52
@[simp] abbrev TCP_OPT : Nat := 54
@[simp] abbrev TCP_DATA0 : Nat := 54

/-! ### TCP flag bits (R97), each the mask of one bit of `BUF[47]` -/

@[simp] abbrev FIN : Byte := 0x01#8
@[simp] abbrev SYN : Byte := 0x02#8
@[simp] abbrev RST : Byte := 0x04#8
@[simp] abbrev PSH : Byte := 0x08#8
@[simp] abbrev ACK : Byte := 0x10#8
@[simp] abbrev URG : Byte := 0x20#8

/-- The MSS option: kind 2, length 4, the value big-endian (R98). -/
def mssOption (mss : U16) : List Byte := [0x02#8, 0x04#8, hi mss, lo mss]

/-- The eight bytes `HTYPE, PTYPE, HLEN, PLEN, OPER = request` of an ARP request (R92, R186, decision D25). -/
def arpRequestHeader : List Byte := [0x00#8, 0x01#8, 0x08#8, 0x00#8, 0x06#8, 0x04#8, 0x00#8, 0x01#8]

end Sys2Proof.Machine
end

