-- ==== Sys2Proof/Machine/Headers.lean ====
section
/-! DEFINITION. The steps the transcoders share (`42_transcoders_arp_icmp_udp.md` rules R175 to R179, R191;
`43_transcoders_tcp.md` rules R210, R211), as functions of the Packet Buffer. -/

namespace Sys2Proof.Machine

/-- `EthReply()` (R176). -/
def ethReply (mac : Mac) (m : Memory) : Memory := m.turnRound ETH_DST ETH_SRC mac.bytes

/-- `EthNew(dmac)` (R177). -/
def ethNew (mac dmac : Mac) (m : Memory) : Memory := m.wrPair ETH_DST ETH_SRC dmac.bytes mac.bytes

/-- The part of `IpFinish()` before its checksum (R179): the optional rewrite of flags, fragment and TTL, and the zeroed
checksum field. -/
def ipZeroed (cfg : Config) (m : Memory) : Memory :=
  let m := if cfg.ipNormalise then ((m.wr IP_FRAG 0x40#8).wr (IP_FRAG + 1) 0x00#8).wr IP_TTL 64#8 else m
  (m.wr IP_CSUM 0x00#8).wr (IP_CSUM + 1) 0x00#8

/-- `IpFinish()` (R179): the IPv4 header checksum over offsets 14 to 33. -/
def ipFinish (cfg : Config) (m : Memory) : Memory := (ipZeroed cfg m).storeCksum cfg .ip IP_VIHL 20 IP_CSUM

/-- The address turn-round of `IpReply()` (R178). -/
def ipTurn (ip : Ip4) (m : Memory) : Memory := m.turnRound IP_DST IP_SRC ip.bytes

/-- `IpReply()` (R178). -/
def ipReply (cfg : Config) (ip : Ip4) (m : Memory) : Memory := ipFinish cfg (ipTurn ip m)

/-- `IcmpPatch()` (R191): 8 is added to `BUF[36]`, its carry re-enters at `BUF[37]`, whose own carry is lost
(decision D13). -/
def icmpPatch (m : Memory) : Memory :=
  let m := if 0xF7#8 < m.rd ICMP_CSUM then m.wr (ICMP_CSUM + 1) (m.rd (ICMP_CSUM + 1) + 1#8) else m
  m.wr ICMP_CSUM (m.rd ICMP_CSUM + 8#8)

/-- The initial sequence number: the bytes `00 00 SEQ 00`, the number `SEQ * 256` (R211, decision D16). -/
def initialSeq (seq : Byte) : U32 := be32 0#8 0#8 seq 0#8

/-- The option and the header-length byte (R98, R210, R235): 24 bytes with the MSS option, else 20. -/
def tcpOption (cfg : Config) (mss : Bool) (m : Memory) : Memory :=
  if mss then (m.wrBytes TCP_OPT (mssOption cfg.mss)).wr TCP_HLEN 0x60#8 else m.wr TCP_HLEN 0x50#8

/-- `BUF[36..37] <- BUF[34..35]`, byte by byte: the reply goes to the port the request came from (R200, R210). -/
def portsTurn (m : Memory) : Memory :=
  let m := m.wr TCP_DPORT (m.rd TCP_SPORT)
  m.wr (TCP_DPORT + 1) (m.rd (TCP_SPORT + 1))

/-- `TcpHead(adv, mss, newseq)` on the buffer (R210); the new `SEQ` is the caller's to store. -/
def tcpHead (cfg : Config) (port seq : Byte) (adv : U16) (mss newseq : Bool) (m : Memory) : Memory :=
  let m := portsTurn m
  let m := (m.wr TCP_SPORT 0x00#8).wr (TCP_SPORT + 1) port
  let peerSeq := m.rd32 TCP_SEQ
  let peerAck := m.rd32 TCP_ACK
  let m := m.wr32 TCP_ACK (peerSeq + adv.setWidth 32)
  let m := m.wr32 TCP_SEQ (if newseq then initialSeq seq else peerAck)
  let m := (m.wr TCP_CSUM 0x00#8).wr (TCP_CSUM + 1) 0x00#8
  tcpOption cfg mss m

end Sys2Proof.Machine
end

