-- ==== Sys2Proof/Machine/Arp.lean ====
section
/-! DEFINITION. The ARP transcoders (`42_transcoders_arp_icmp_udp.md` rules R185, R186): `ARP.REPLY`, `ARP.REQ`. -/

namespace Sys2Proof.Machine

/-- The buffer writes of `ARP.REPLY` (R185). -/
def arpReplyFrame (mac : Mac) (ip : Ip4) (m : Memory) : Memory :=
  let m := ethReply mac m
  let m := m.turnRound ARP_THA ARP_SHA mac.bytes
  let m := m.turnRound ARP_TPA ARP_SPA ip.bytes
  (m.wr ARP_OPER 0x00#8).wr (ARP_OPER + 1) 0x02#8

/-- `ArpReply()` (R185, R270). -/
def opArpReply (s : State) : Run :=
  .done 42#16 (State.send 42 { s with buf := arpReplyFrame s.mac s.ip s.buf })

/-- The buffer writes of `ARP.REQ` (R186, decision D25). -/
def arpReqFrame (mac : Mac) (ip : Ip4) (dmac : Mac) (tip : Ip4) (m : Memory) : Memory :=
  let m := ethNew mac dmac m
  let m := (m.wr ETH_TYPE 0x08#8).wr (ETH_TYPE + 1) 0x06#8
  let m := m.wrBytes ARP_HTYPE arpRequestHeader
  let m := m.wrBytes ARP_SHA mac.bytes
  let m := m.wrBytes ARP_SPA ip.bytes
  let m := m.wrBytes ARP_THA [0#8, 0#8, 0#8, 0#8, 0#8, 0#8]
  m.wrBytes ARP_TPA tip.bytes

/-- `ARP.REQ dmac, tip` (R186). -/
def opArpReq (dmac : Mac) (tip : Ip4) (s : State) : Run :=
  .done 42#16 (State.send 42 { s with buf := arpReqFrame s.mac s.ip dmac tip s.buf })

/-- `ARP.REPLY` (R185). -/
def execArpReply (s : State) : Host.Outcome State Fault Refusal := command opArpReply s

/-- `ARP.REQ dmac, tip` (R186). -/
def execArpReq (dmac : Mac) (tip : Ip4) (s : State) : Host.Outcome State Fault Refusal := command (opArpReq dmac tip) s

end Sys2Proof.Machine
end

