-- ==== Sys2Proof/Machine/Classifier.lean ====
section
/-! DEFINITION. The Frame Classifier (`41_classifier.md` rules R160 to R164): `CLS.ARP`, `CLS.IP4`, `CLS.ARPRPLY`. -/

namespace Sys2Proof.Machine

/-- `is_arp_for_me(buf, len)` (R161). -/
def State.arpForMe (s : State) (len : Nat) : Bool :=
  s.cfg.arpMin ≤ len && s.buf.slice ETH_TYPE 2 == [0x08#8, 0x06#8] && s.buf.slice ARP_TPA 4 == s.ip.bytes

/-- `is_ipv4_for_me(buf, len)` (R162). -/
def State.ip4ForMe (s : State) (len : Nat) : Bool :=
  s.cfg.ip4Min ≤ len && s.buf.slice ETH_TYPE 2 == [0x08#8, 0x00#8] && s.buf.rd IP_VIHL == 0x45#8
    && s.buf.slice IP_DST 4 == s.ip.bytes

/-- `arp_reply_is_mine` (R163): no length test (decision D10), both opcode bytes (decision D9). -/
def State.arpReplyIsMine (s : State) : Bool :=
  s.buf.slice ETH_TYPE 2 == [0x08#8, 0x06#8] && s.buf.slice ARP_OPER 2 == [0x00#8, 0x02#8]
    && s.buf.slice ARP_TPA 4 == s.ip.bytes

/-- `CLS.ARP len` (R161). -/
def execClsArp (len : U16) (s : State) : Host.Outcome State Fault Refusal :=
  command (fun s => .done (boolRes (s.arpForMe len.toNat)) s) s

/-- `CLS.IP4 len` (R162). -/
def execClsIp4 (len : U16) (s : State) : Host.Outcome State Fault Refusal :=
  command (fun s => .done (boolRes (s.ip4ForMe len.toNat)) s) s

/-- `CLS.ARPRPLY` (R163). -/
def execClsArprply (s : State) : Host.Outcome State Fault Refusal :=
  command (fun s => .done (boolRes s.arpReplyIsMine) s) s

end Sys2Proof.Machine
end

