-- ==== Sys2Proof/Machine/Icmp.lean ====
section
/-! DEFINITION. The ICMP transcoder (`42_transcoders_arp_icmp_udp.md` rules R190, R191): `ICMP.REPLY`. -/

namespace Sys2Proof.Machine

/-- The buffer of `ICMP.REPLY` when `IpFinish` starts (R190). -/
def icmpAddressed (mac : Mac) (ip : Ip4) (m : Memory) : Memory := ipTurn ip (ethReply mac m)

/-- The buffer writes of `ICMP.REPLY` (R190). -/
def icmpReplyFrame (cfg : Config) (mac : Mac) (ip : Ip4) (m : Memory) : Memory :=
  icmpPatch ((ipFinish cfg (icmpAddressed mac ip m)).wr ICMP_TYPE 0x00#8)

/-- `IcmpReply(len)` (R190, R270): `BadOperand` before `BufferBounds`, both before any write (R294). The one checksum it
evaluates is the IP header's. -/
def opIcmpReply (len : U16) (s : State) : Run :=
  if len = 0#16 then .raised .badOperand s
  else if s.cap < len.toNat then .raised .bufferBounds s
  else
    .done len (State.send len.toNat { s with
      buf := icmpReplyFrame s.cfg s.mac s.ip s.buf
      sum := (ipZeroed s.cfg (icmpAddressed s.mac s.ip s.buf)).sumOf s.cfg .ip IP_VIHL 20 })

/-- `ICMP.REPLY len` (R190). -/
def execIcmpReply (len : U16) (s : State) : Host.Outcome State Fault Refusal := command (opIcmpReply len) s

end Sys2Proof.Machine
end

