-- ==== Sys2Proof/Machine/Session.lean ====
section
/-! DEFINITION. The SDP-TCP Session Helper (`44_session.md` rules R250 to R253): `SES.DERIVE`, `SES.POFF`. -/

namespace Sys2Proof.Machine

/-- `4 * BUF[46][7:4]` (R251). -/
def headerLength (m : Memory) : U16 := 4#16 * ((m.rd TCP_HLEN).extractLsb' 4 4).setWidth 16

/-- `T if 1 <= T <= 32767 else 0`, with `T = Rd16(16) - 20 - HLEN` over the integers (R251, R252). -/
def dataLength (totlen hlen : U16) : U16 :=
  let t : Int := (totlen.toNat : Int) - 20 - (hlen.toNat : Int)
  if 1 ≤ t ∧ t ≤ 32767 then BitVec.ofInt 16 t else 0#16

/-- What `SES.DERIVE` puts into `RES`: `DLEN` (R251), or 0, the number of bytes it sent (R30). Which one is the instance's
(`Config.deriveResult`, log 20). -/
def deriveRes (r : DeriveResult) (dlen : U16) : U16 :=
  match r with
  | .dataLength => dlen
  | .bytesSent => 0#16

/-- `SesDerive()` (R251, R270), with `RES` as `deriveRes` has it (R251, R30, log 20). -/
def opSesDerive (s : State) : Run :=
  let hlen := headerLength s.buf
  let dlen := dataLength (s.buf.rd16 IP_TOTLEN) hlen
  .done (deriveRes s.cfg.deriveResult dlen) (State.setSesv { s with hlen := hlen, dlen := dlen })

/-- `SesPoff()` (R253, R270). -/
def opSesPoff (s : State) : Run :=
  if s.sesv then .done (if s.dlen = 0#16 then 0#16 else 34#16 + s.hlen) s
  else .raised .staleSession s

/-- `SES.DERIVE` (R251). -/
def execSesDerive (s : State) : Host.Outcome State Fault Refusal := command opSesDerive s

/-- `SES.POFF` (R253). -/
def execSesPoff (s : State) : Host.Outcome State Fault Refusal := command opSesPoff s

end Sys2Proof.Machine
end

