-- ==== Sys2Proof/Machine/Tcp.lean ====
section
/-! DEFINITION. The TCP transcoders (`43_transcoders_tcp.md` rules R210 to R240): `TCP.SYNACK`, `TCP.ACK`, `TCP.ACKDATA`,
`TCP.CLIENT`, `FILL`. -/

namespace Sys2Proof.Machine

/-- The end of every TCP transcoder: `ck <- Cksum(TCP, 26, len); Wr16(50, ck); Send(n)` on the buffer built so far. -/
def State.tcpSend (s : State) (zeroed : Memory) (len n : Nat) : State :=
  State.send n { s with
    buf := zeroed.storeCksum s.cfg .tcp IP_SRC len TCP_CSUM
    sum := zeroed.sumOf s.cfg .tcp IP_SRC len }

/-! ### TCP.SYNACK -/

/-- The buffer of `TCP.SYNACK` when its TCP checksum is evaluated (R220). -/
def synackZeroed (cfg : Config) (mac : Mac) (ip : Ip4) (port seq : Byte) (m : Memory) : Memory :=
  let m := ethReply mac m
  let m := m.wr16 IP_TOTLEN 44#16
  let m := ipReply cfg ip m
  let m := m.wr TCP_FLAGS (SYN ||| ACK)
  tcpHead cfg port seq 1#16 true true m

/-- `TcpSynAck()` (R220, R270). -/
def opTcpSynack (s : State) : Run :=
  .done 58#16 (State.tcpSend { s with seq := s.seq + s.cfg.seqStep } (synackZeroed s.cfg s.mac s.ip s.port s.seq s.buf) 32 58)

/-- `TCP.SYNACK` (R220). -/
def execTcpSynack (s : State) : Host.Outcome State Fault Refusal := command opTcpSynack s

/-! ### TCP.ACK -/

/-- `max(1, DLEN)`, `DLEN` signed (R23, R225; log 15). -/
def ackAdvance (dlen : U16) : U16 := if dlen.toInt ≤ 1 then 1#16 else dlen

/-- The buffer of `TCP.ACK` when its TCP checksum is evaluated (R225). -/
def ackZeroed (cfg : Config) (mac : Mac) (ip : Ip4) (port : Byte) (dlen : U16) (m : Memory) : Memory :=
  let m := ethReply mac m
  let m := m.wr TCP_FLAGS ACK
  let m := tcpHead cfg port 0#8 (ackAdvance dlen) false false m
  let m := m.wr16 IP_TOTLEN 40#16
  ipReply cfg ip m

/-- `TcpAck()` (R225, R270). -/
def opTcpAck (s : State) : Run :=
  if s.sesv then .done 54#16 (s.tcpSend (ackZeroed s.cfg s.mac s.ip s.port s.dlen s.buf) 28 54)
  else .raised .staleSession s

/-- `TCP.ACK` (R225). -/
def execTcpAck (s : State) : Host.Outcome State Fault Refusal := command opTcpAck s

/-! ### TCP.ACKDATA -/

/-- The buffer of `TCP.ACKDATA` when its TCP checksum is evaluated (R230). -/
def ackdataZeroed (cfg : Config) (dlen : U16) (m : Memory) : Memory :=
  let m := m.wr TCP_FLAGS (ACK ||| PSH ||| FIN)
  let m := m.wr16 IP_TOTLEN (u16 (40 + dlen.toNat))
  let m := ipFinish cfg m
  (m.wr TCP_CSUM 0x00#8).wr (TCP_CSUM + 1) 0x00#8

/-- `TcpAckData(dlen)` (R230, R270). -/
def opTcpAckdata (dlen : U16) (s : State) : Run :=
  if s.cap < 54 + dlen.toNat then .raised .bufferBounds s
  else
    .done (u16 (54 + dlen.toNat))
      (s.tcpSend (ackdataZeroed s.cfg dlen s.buf) (28 + dlen.toNat) (54 + dlen.toNat))

/-- `TCP.ACKDATA dlen` (R230). -/
def execTcpAckdata (dlen : U16) (s : State) : Host.Outcome State Fault Refusal := command (opTcpAckdata dlen) s

/-! ### TCP.CLIENT -/

/-- `o <- 4 * MSS`: option bytes (R235). -/
def optionBytes (mss : Bool) : Nat := if mss then 4 else 0

/-- "Turn round the segment standing in BUF" when `ackadv != 0` (R235). -/
def clientTurn (ackadv : U16) (m : Memory) : Memory :=
  if ackadv = 0#16 then m
  else
    let peerSeq := m.rd32 TCP_SEQ
    let peerAck := m.rd32 TCP_ACK
    (m.wr32 TCP_ACK (peerSeq + ackadv.setWidth 32)).wr32 TCP_SEQ peerAck

/-- The fresh initial sequence number when `MSS` is set (R211, R235). -/
def clientSeq (seq : Byte) (mss : Bool) (m : Memory) : Memory := if mss then m.wr32 TCP_SEQ (initialSeq seq) else m

/-- The IPv4 header of `TCP.CLIENT`, from `IP_VIHL` to `IpFinish` (R235, decision D24). -/
def clientIp (cfg : Config) (ip dip : Ip4) (ipid totlen : U16) (m : Memory) : Memory :=
  let m := (m.wr IP_VIHL 0x45#8).wr IP_TOS 0x00#8
  let m := m.wr16 IP_TOTLEN totlen
  let m := m.wr16 IP_ID ipid
  let m := (m.wr IP_FRAG 0x40#8).wr (IP_FRAG + 1) 0x00#8
  let m := (m.wr IP_TTL cfg.clientTtl).wr IP_PROTO 6#8
  let m := m.wrBytes IP_SRC ip.bytes
  let m := m.wrBytes IP_DST dip.bytes
  ipFinish cfg m

/-- The rest of the TCP header of `TCP.CLIENT` (R235). -/
def clientTail (cfg : Config) (flags : Byte) (clrack : Bool) (m : Memory) : Memory :=
  let m := if clrack then m.wr32 TCP_ACK 0#32 else m
  let m := m.wr TCP_FLAGS flags
  let m := m.wr16 TCP_WIN cfg.clientWindow
  let m := (m.wr TCP_CSUM 0x00#8).wr (TCP_CSUM + 1) 0x00#8
  (m.wr TCP_URG 0x00#8).wr (TCP_URG + 1) 0x00#8

/-- The buffer of `TCP.CLIENT` when its TCP checksum is evaluated (R235). -/
def clientZeroed (s : State) (dmac : Mac) (dip : Ip4) (dport sport : U16) (flags : Byte) (mss clrack : Bool)
    (ackadv dlen : U16) : Memory :=
  let m := ethNew s.mac dmac s.buf
  let m := (m.wr ETH_TYPE 0x08#8).wr (ETH_TYPE + 1) 0x00#8
  let m := (m.wr16 TCP_SPORT sport).wr16 TCP_DPORT dport
  let m := clientTurn ackadv m
  let m := clientSeq s.seq mss m
  let m := tcpOption s.cfg mss m
  let m := clientIp s.cfg s.ip dip s.ipid (u16 (40 + optionBytes mss + dlen.toNat)) m
  clientTail s.cfg flags clrack m

/-- `TCP.CLIENT` (R235): `IPID` advances by 1, `SEQ` by `SEQ_STEP` when `MSS` is set (R22). -/
def opTcpClient (dmac : Mac) (dip : Ip4) (dport sport : U16) (flags : Byte) (mss clrack : Bool) (ackadv dlen : U16)
    (s : State) : Run :=
  let n := 54 + optionBytes mss + dlen.toNat
  if s.cap < n then .raised .bufferBounds s
  else
    .done (u16 n)
      (State.tcpSend { s with ipid := s.ipid + 1#16, seq := if mss then s.seq + s.cfg.seqStep else s.seq }
        (clientZeroed s dmac dip dport sport flags mss clrack ackadv dlen) (28 + optionBytes mss + dlen.toNat) n)

/-- `TCP.CLIENT dmac, dip, dport, sport, flags, ctl, ackadv, dlen` (R235). -/
def execTcpClient (dmac : Mac) (dip : Ip4) (dport sport : U16) (flags : Byte) (mss clrack : Bool) (ackadv dlen : U16)
    (s : State) : Host.Outcome State Fault Refusal :=
  command (opTcpClient dmac dip dport sport flags mss clrack ackadv dlen) s

/-! ### FILL -/

/-- `Fill(pos, text)` (R240, R270). -/
def opFill (pos : U16) (text : List Byte) (s : State) : Run :=
  if s.cap < TCP_DATA0 + pos.toNat + text.length then .raised .bufferBounds s
  else .done (u16 (pos.toNat + text.length)) { s with buf := s.buf.wrBytes (TCP_DATA0 + pos.toNat) text }

/-- `FILL pos, text` (R240). -/
def execFill (pos : U16) (text : List Byte) (s : State) : Host.Outcome State Fault Refusal := command (opFill pos text) s

end Sys2Proof.Machine
end

