-- ==== Sys2Proof/Machine/Loop.lean ====
section
/-! DEFINITION. The Dispatch Loop (`45_dispatch.md` rules R270 to R277): `DISPATCH`. -/

namespace Sys2Proof.Machine

/-- `RES` receives only the outcome code: the value of a sub-operation is used locally (R270, R275). -/
def Run.outcome (code : U16) (r : Run) : Run := r.andThen fun _ s => .done code s

/-- A flag of the received segment (R97, R274): the mask's bit of `BUF[47]`. -/
def State.tcpFlag (s : State) (mask : Byte) : Bool := s.buf.rd TCP_FLAGS &&& mask != 0#8

/-- "TCP segment on the registered port" (R273), the 16-bit port being `zext_16(PORT)` (R29). -/
def State.tcpForMe (s : State) : Bool :=
  s.buf.rd IP_PROTO == 6#8 && s.buf.rd TCP_DPORT == 0x00#8 && s.buf.rd (TCP_DPORT + 1) == s.port

/-- Rule 8 (R276): the request at `BUF[p .. p + DLEN - 1]` goes to the Application Handler before any response byte is
written; then `Fill`, `TcpAck`, `TcpAckData`. -/
def dispatchData (p : U16) (s : State) : Run :=
  if s.cap < p.toNat + s.dlen.toNat then .raised .bufferBounds s
  else
    let req := s.buf.slice p.toNat s.dlen.toNat
    let resp := s.answer req
    ((opFill 0#16 resp (s.logRequest req)).andThen fun _ s =>
      (opTcpAck s).andThen fun _ s => opTcpAckdata (u16 resp.length) s).outcome 8#16

/-- Rules 6 to 8 (R274): `ACK` set and no `SYN`. -/
def dispatchAck (s : State) : Run :=
  (opSesDerive s).andThen fun _ s =>
    (opSesPoff s).andThen fun p s =>
      if p = 0#16 then
        if s.tcpFlag FIN then (opTcpAck s).outcome 6#16
        else .done 7#16 s
      else dispatchData p s

/-- The decision tree on a frame of `n` bytes now in the buffer (R270 to R274). -/
def dispatchFrame (n : U16) (s : State) : Run :=
  if s.arpForMe n.toNat && s.buf.slice ARP_OPER 2 == [0x00#8, 0x01#8] then (opArpReply s).outcome 2#16
  else if !s.ip4ForMe n.toNat then .done 3#16 s
  else if s.buf.rd IP_PROTO == 1#8 && s.buf.rd ICMP_TYPE == 8#8 then (opIcmpReply n s).outcome 4#16
  else if s.tcpForMe then
    if s.tcpFlag SYN then (opTcpSynack s).outcome 5#16
    else if s.tcpFlag ACK then dispatchAck s
    else .done 9#16 s
  else .done 9#16 s

/-- One turn of the Dispatch Loop (R270). -/
def opDispatch (s : State) : Run :=
  let s := s.linkReceive
  if s.rxlen = 0#16 then .done 1#16 s else dispatchFrame s.rxlen s

/-- `DISPATCH` (R270). -/
def execDispatch (s : State) : Host.Outcome State Fault Refusal := command opDispatch s

end Sys2Proof.Machine
end

