-- ==== Sys2Proof/Machine/System.lean ====
section
/-! DEFINITION. Initialisation and frame reception (`45_dispatch.md` rules R260 to R265): `INIT`, `RECV`. -/

namespace Sys2Proof.Machine

/-- `INIT mac, ip, port` (R261), with the order of its checks (R126): refused while `FAULT != 0`, `AlreadyInitialised`
while `INITED = 1`. -/
def execInit (mac : Mac) (ip : Ip4) (port : Byte) (s : State) : Host.Outcome State Fault Refusal :=
  if s.faulted then .next s
  else if s.inited then .next (raise .alreadyInitialised s)
  else .next (Run.done 0#16 (State.setInited { s with mac := mac, ip := ip, port := port })).finish

/-- `RECV` (R265). -/
def execRecv (s : State) : Host.Outcome State Fault Refusal :=
  command (fun s => .done s.linkReceive.rxlen s.linkReceive) s

end Sys2Proof.Machine
end

