-- ==== Sys2Proof/Machine/Udp.lean ====
section
/-! DEFINITION. The UDP transcoder (`42_transcoders_arp_icmp_udp.md` rule R200): `UDP.REPLY`. -/

namespace Sys2Proof.Machine

/-- The buffer of `UDP.REPLY` when its UDP checksum is evaluated (R200); `payload` is the part of the data that is
copied. -/
def udpZeroed (cfg : Config) (mac : Mac) (ip : Ip4) (sport : U16) (payload : List Byte) (m : Memory) : Memory :=
  let m := ethReply mac m
  let m := m.wr16 IP_TOTLEN (u16 (28 + payload.length))
  let m := ipReply cfg ip m
  let m := portsTurn m
  let m := m.wr16 UDP_SPORT sport
  let m := m.wrBytes UDP_DATA payload
  let m := m.wr16 UDP_LEN (u16 (8 + payload.length))
  (m.wr UDP_CSUM 0x00#8).wr (UDP_CSUM + 1) 0x00#8

/-- `UDP.REPLY sport, data` (R200): the payload is `data[0..m-1]` with `m = min(n, UDP_MAX)`. -/
def opUdpReply (sport : U16) (data : List Byte) (s : State) : Run :=
  let payload := data.take s.cfg.udpMax
  let m := payload.length
  if s.cap < 42 + m then .raised .bufferBounds s
  else
    let zeroed := udpZeroed s.cfg s.mac s.ip sport payload s.buf
    .done (u16 (42 + m)) (State.send (42 + m) { s with
      buf := zeroed.storeCksum s.cfg .udp IP_SRC (16 + m) UDP_CSUM
      sum := zeroed.sumOf s.cfg .udp IP_SRC (16 + m) })

/-- `UDP.REPLY sport, data` (R200). -/
def execUdpReply (sport : U16) (data : List Byte) (s : State) : Host.Outcome State Fault Refusal :=
  command (opUdpReply sport data) s

end Sys2Proof.Machine
end

