-- ==== Sys2Proof/Machine/Dispatch.lean ====
section
/-! DEFINITION. One arm per operation of the opcode table (`30_encoding.md` rule R122), each its meaning. -/

namespace Sys2Proof.Machine

def exec (i : Instr) (s : State) : Host.Outcome State Fault Refusal :=
  match i with
  | .init mac ip port => Sys2Proof.Machine.execInit mac ip port s
  | .cksumIp off len => Sys2Proof.Machine.execCksumIp off len s
  | .cksumUdp off len => Sys2Proof.Machine.execCksumUdp off len s
  | .cksumTcp off len => Sys2Proof.Machine.execCksumTcp off len s
  | .clsArp len => Sys2Proof.Machine.execClsArp len s
  | .clsIp4 len => Sys2Proof.Machine.execClsIp4 len s
  | .clsArprply => Sys2Proof.Machine.execClsArprply s
  | .arpReply => Sys2Proof.Machine.execArpReply s
  | .arpReq dmac tip => Sys2Proof.Machine.execArpReq dmac tip s
  | .icmpReply len => Sys2Proof.Machine.execIcmpReply len s
  | .udpReply sport data => Sys2Proof.Machine.execUdpReply sport data s
  | .tcpSynack => Sys2Proof.Machine.execTcpSynack s
  | .tcpAck => Sys2Proof.Machine.execTcpAck s
  | .tcpAckdata dlen => Sys2Proof.Machine.execTcpAckdata dlen s
  | .tcpClient dmac dip dport sport flags mss clrack ackadv dlen => Sys2Proof.Machine.execTcpClient dmac dip dport sport flags mss clrack ackadv dlen s
  | .fill pos text => Sys2Proof.Machine.execFill pos text s
  | .sesDerive => Sys2Proof.Machine.execSesDerive s
  | .sesPoff => Sys2Proof.Machine.execSesPoff s
  | .dispatch => Sys2Proof.Machine.execDispatch s
  | .recv => Sys2Proof.Machine.execRecv s

end Sys2Proof.Machine
end

