-- ==== Sys2Proof/Machine/Step.lean ====
section
/-! DEFINITION. One step: one command of the host (`30_encoding.md` rule R120; `20_memory.md` rule R80). -/

namespace Sys2Proof.Machine

/-- The engine takes the next command, runs it and answers; between commands it is idle and holds its state
(R80, R120, R299; log 5, log 6). -/
def step (s : State) : Host.Outcome State Fault Refusal :=
  match s.cmds with
  | [] => .next s
  | c :: rest => runCommand exec c (s.withCommands rest)

/-- The state with the instruction whose bits are `w` as the next command (log 5, log 19). -/
def State.withFetchWord (s : State) (nbits w : Nat) : State := s.present (tableBytes nbits w)

end Sys2Proof.Machine
end

