-- ==== Sys2Proof/Machine/Pseudo.lean ====
section
/-! DEFINITION. The pseudo-operations (`30_encoding.md` rule R128): each an abbreviation for a fixed sequence of commands.
The engine does not know them; they stand for what the host issues. -/

namespace Sys2Proof.Machine

/-- The pseudo-operations of R128. -/
inductive Pseudo where
  /-- `ARP.WHOHAS tip=T`. -/
  | arpWhohas (tip : Ip4)
  /-- `TCP.REPLY text=S`. -/
  | tcpReply (text : List Byte)
  /-- `FILL2 a=S1, b=S2`. -/
  | fill2 (a b : List Byte)
  /-- `VERIFY.IP`. -/
  | verifyIp
  /-- `VERIFY.TCP len=L`. -/
  | verifyTcp (len : U16)
  /-- `VERIFY.UDP len=L`. -/
  | verifyUdp (len : U16)
  deriving DecidableEq, Repr

/-- The broadcast MAC address (R99). -/
def broadcastMac : Mac := ⟨0xFF#8, 0xFF#8, 0xFF#8, 0xFF#8, 0xFF#8, 0xFF#8⟩

/-- The operations a pseudo-operation expands to (R128). -/
def Pseudo.expand : Pseudo → List Instr
  | .arpWhohas tip => [.arpReq broadcastMac tip]
  | .tcpReply text => [.fill 0#16 text, .tcpAck, .tcpAckdata (u16 text.length)]
  | .fill2 a b => [.fill 0#16 a, .fill (u16 a.length) b]
  | .verifyIp => [.cksumIp 14#16 20#16]
  | .verifyTcp len => [.cksumTcp 26#16 len]
  | .verifyUdp len => [.cksumUdp 26#16 len]

/-- Operations executed one after another, up to the first that does not answer a next state. -/
def execList : List Instr → State → Host.Outcome State Fault Refusal
  | [], s => .next s
  | i :: rest, s =>
    match exec i s with
    | .next t => execList rest t
    | .fault f => .fault f
    | .refused r => .refused r

end Sys2Proof.Machine
end

