-- ==== Sys2Proof/Safety.lean ====
section
/-! DEFINITION. What counts as a safe state, in the terms the claims use: the Packet Buffer stays in its canonical form and
inside `CAP` (`20_memory.md` rule R61), `FAULT` holds a code of R291, the session scalars are values `SES.DERIVE` can
produce (`10_state.md` rule R23), `SUM` fits its register (R33), `RXLEN` is a length `LinkReceive` can return (`60_exceptions.md` rule R305), and every
frame handed over has between 1 and `CAP` bytes (R180, R306). -/

namespace Sys2Proof.Machine

/-- Every byte written lies at an offset below `CAP` (R60, R61). -/
def Memory.inside (cap : Nat) (m : Memory) : Prop := ∀ x ∈ m, x.1 < cap

/-- `FAULT` is 0 or one of the six codes (R291). -/
def State.faultLegal (s : State) : Prop := s.fault.toNat ≤ 6

/-- `HLEN` is in 0, 4, ..., 60 and `DLEN` in 0..32767 (R23). -/
def State.sessionLegal (s : State) : Prop := s.hlen.toNat % 4 = 0 ∧ s.hlen.toNat ≤ 60 ∧ s.dlen.toNat ≤ 32767

/-- `RXLEN <= CAP` (R305). -/
def State.rxlenLegal (s : State) : Prop := s.rxlen.toNat ≤ s.cap

/-- `SUM` is a value of `ACC_W` bits (R20, R33). -/
def State.sumLegal (s : State) : Prop := s.sum < 2 ^ s.cfg.accW.val

/-- Every frame handed to the link layer has `1 <= n <= CAP` bytes (R180, R306). -/
def State.framesFit (s : State) : Prop := ∀ f ∈ s.txlog, 1 ≤ f.length ∧ f.length ≤ s.cap

/-- Every response is three bytes (R123). -/
def State.responsesLegal (s : State) : Prop := ∀ r ∈ s.resps, r.length = 3

/-- The invariant of NPE. -/
def State.Inv (s : State) : Prop :=
  s.buf.wf ∧ s.buf.inside s.cap ∧ s.faultLegal ∧ s.sessionLegal ∧ s.sumLegal ∧ s.rxlenLegal ∧ s.framesFit ∧ s.responsesLegal

end Sys2Proof.Machine
end

