-- ==== Sys2Proof/Certificates/Slice0/Obligations.lean ====
section
/-! DEFINITION. The statements for the provers, each with the rule of spec/ it comes from, after the small vocabulary they
share. The vocabulary says what the rules say in terms of bytes and numbers, not through the model's own steps. -/

open Sys2Proof Sys2Proof.Machine

namespace Sys2Proof.Claims

/-! ### The engine and its commands -/

/-- The engine executes commands: `FAULT = 0` and `INITED = 1` (R126). -/
abbrev Ready (s : State) : Prop := s.fault = 0#8 ∧ s.inited = true

/-- The command is `INIT`. -/
def isInit : Instr → Bool
  | .init _ _ _ => true
  | _ => false

/-- The command is `TCP.CLIENT`. -/
def isClient : Instr → Bool
  | .tcpClient _ _ _ _ _ _ _ _ _ => true
  | _ => false

/-- An operation that completed with this result started an exchange, and so advanced `SEQ`: `TCP.SYNACK`, `TCP.CLIENT` with
`MSS`, and `DISPATCH` through rule 5 (R22, R270). -/
def startsExchange (i : Instr) (res : U16) : Bool :=
  match i with
  | .tcpSynack => true
  | .tcpClient _ _ _ _ _ mss _ _ _ => mss
  | .dispatch => res == 5#16
  | _ => false

/-- The operations with a "w" in the `SEQ` column of R37. -/
def mayAdvanceSeq : Instr → Bool
  | .tcpSynack => true
  | .tcpClient _ _ _ _ _ mss _ _ _ => mss
  | .dispatch => true
  | _ => false

/-- The operations with a "w" in the `BUF` column of R37. -/
def writesBuf : Instr → Bool
  | .arpReply => true
  | .arpReq _ _ => true
  | .icmpReply _ => true
  | .udpReply _ _ => true
  | .tcpSynack => true
  | .tcpAck => true
  | .tcpAckdata _ => true
  | .tcpClient _ _ _ _ _ _ _ _ _ => true
  | .fill _ _ => true
  | .recv => true
  | .dispatch => true
  | _ => false

/-- The operations with a "w" in the `TXLOG` column of R37. -/
def transmits : Instr → Bool
  | .arpReply => true
  | .arpReq _ _ => true
  | .icmpReply _ => true
  | .udpReply _ _ => true
  | .tcpSynack => true
  | .tcpAck => true
  | .tcpAckdata _ => true
  | .tcpClient _ _ _ _ _ _ _ _ _ => true
  | .dispatch => true
  | _ => false

/-- The operations that bring a new frame into `BUF` (R24, R32). -/
def receives : Instr → Bool
  | .recv => true
  | .dispatch => true
  | _ => false

/-- The operations with a "w" in the `HLEN, DLEN` column of R37. -/
def derives : Instr → Bool
  | .sesDerive => true
  | .dispatch => true
  | _ => false

/-- An outcome with its next state changed by `f`. -/
def mapNext (f : State → State) : Host.Outcome State Fault Refusal → Host.Outcome State Fault Refusal
  | .next t => .next (f t)
  | .fault r => .fault r
  | .refused r => .refused r

/-- The response to a command (R123): `FAULT`, then `RES` big-endian. -/
def withResponse (t : State) : State := { t with resps := t.resps ++ [[t.fault, hi t.res, lo t.res]] }

/-- The length of a command with this opcode byte and this count at command bytes 3 and 4, none where the opcode byte is
reserved (R122, R125). -/
def commandLength (opcode n : Nat) : Option Nat :=
  match opcode with
  | 0x00 => some 12
  | 0x10 => some 5
  | 0x11 => some 5
  | 0x12 => some 5
  | 0x20 => some 3
  | 0x21 => some 3
  | 0x22 => some 1
  | 0x30 => some 1
  | 0x31 => some 11
  | 0x32 => some 3
  | 0x33 => some (5 + n)
  | 0x40 => some 1
  | 0x41 => some 1
  | 0x42 => some 3
  | 0x43 => some 21
  | 0x44 => some (5 + n)
  | 0x50 => some 1
  | 0x51 => some 1
  | 0x60 => some 1
  | 0x61 => some 1
  | _ => none

/-- A command is legal (R124): its opcode byte is in the table, its length is the one the opcode requires, and for `TCP.CLIENT`
bits 7 to 2 of `ctl` (command byte 16) are 0. -/
def Legal : List Byte → Prop
  | [] => False
  | b :: args =>
    commandLength b.toNat ((args.getD 2 0#8).toNat * 256 + (args.getD 3 0#8).toNat) = some (args.length + 1) ∧
    (b = 0x43#8 → (args.getD 15 0#8).toNat < 4)

/-- `k` executions of one operation, none where one of them does not answer a next state. -/
def repeated (i : Instr) : Nat → State → Option State
  | 0, s => some s
  | k + 1, s =>
    match exec i s with
    | .next t => repeated i k t
    | .fault _ => none
    | .refused _ => none

/-! ### Checksums as numbers -/

/-- The big-endian words of a byte range, an odd last byte padded on the right (R143). -/
def wordValues : List Byte → List Nat
  | [] => []
  | [a] => [a.toNat * 256]
  | a :: b :: rest => (a.toNat * 256 + b.toNat) :: wordValues rest

/-- The pseudo-header terms that are not in the buffer (R142). -/
def injectedTerms (cfg : Config) (kind : Kind) (len : Nat) : List Nat :=
  match kind with
  | .ip => []
  | .udp => [cfg.protoUdp.toNat, len - 8]
  | .tcp => [cfg.protoTcp.toNat, len - 8]

/-- Every term the checksum of a byte range adds (R142, R143). -/
def terms (cfg : Config) (kind : Kind) (bytes : List Byte) : List Nat :=
  injectedTerms cfg kind bytes.length ++ wordValues bytes

/-- What folding leaves of a total (R144, R154): 0 only for 0, else the representative in 1..65535 modulo 65535. -/
def folded (total : Nat) : Nat := if total = 0 then 0 else (total - 1) % 65535 + 1

/-- One's-complement addition in a 16-bit register (R147). -/
def endAround (a w : Nat) : Nat := if 0xFFFF < a + w then (a + w) % 65536 + 1 else a + w

/-- `CKSUM.IP`, `CKSUM.UDP`, `CKSUM.TCP` by kind. -/
def cksumInstr (kind : Kind) (off len : U16) : Instr :=
  match kind with
  | .ip => .cksumIp off len
  | .udp => .cksumUdp off len
  | .tcp => .cksumTcp off len

/-- The opcodes of the checksum family: the low nibble is the kind (R122). -/
def cksumOpcode : Kind → Byte
  | .ip => 0x10#8
  | .udp => 0x11#8
  | .tcp => 0x12#8

/-! ### Tests on the bytes of a frame -/

/-- The four bytes at an offset are this node's IP address. -/
abbrev IpAt (s : State) (a : Nat) : Prop :=
  s.buf.rd a = s.ip.b0 ∧ s.buf.rd (a + 1) = s.ip.b1 ∧ s.buf.rd (a + 2) = s.ip.b2 ∧ s.buf.rd (a + 3) = s.ip.b3

/-- `is_arp_for_me` (R161). -/
abbrev ArpForMe (s : State) (len : Nat) : Prop :=
  s.cfg.arpMin ≤ len ∧ s.buf.rd 12 = 0x08#8 ∧ s.buf.rd 13 = 0x06#8 ∧ IpAt s 38

/-- `is_ipv4_for_me` (R162). -/
abbrev Ip4ForMe (s : State) (len : Nat) : Prop :=
  s.cfg.ip4Min ≤ len ∧ s.buf.rd 12 = 0x08#8 ∧ s.buf.rd 13 = 0x00#8 ∧ s.buf.rd 14 = 0x45#8 ∧ IpAt s 30

/-- `arp_reply_is_mine` (R163). -/
abbrev ArpReplyIsMine (s : State) : Prop :=
  s.buf.rd 12 = 0x08#8 ∧ s.buf.rd 13 = 0x06#8 ∧ s.buf.rd 20 = 0x00#8 ∧ s.buf.rd 21 = 0x02#8 ∧ IpAt s 38

/-- The frame just received is an ARP request for this node (R271). -/
abbrev ArpRequest (r : State) : Prop :=
  ArpForMe r r.rxlen.toNat ∧ r.buf.rd 20 = 0x00#8 ∧ r.buf.rd 21 = 0x01#8

/-- The frame just received is an ICMP echo request for this node (R272). -/
abbrev EchoRequest (r : State) : Prop :=
  Ip4ForMe r r.rxlen.toNat ∧ r.buf.rd 23 = 1#8 ∧ r.buf.rd 34 = 8#8

/-- The frame just received is a TCP segment for this node's service port (R273). -/
abbrev TcpSegment (r : State) : Prop :=
  Ip4ForMe r r.rxlen.toNat ∧ r.buf.rd 23 = 6#8 ∧ r.buf.rd 36 = 0x00#8 ∧ r.buf.rd 37 = r.port

/-- `SYN` of the segment (R97). -/
abbrev SynSet (r : State) : Prop := (r.buf.rd 47).getLsbD 1 = true

/-- `ACK` of the segment (R97). -/
abbrev AckSet (r : State) : Prop := (r.buf.rd 47).getLsbD 4 = true

/-- `FIN` of the segment (R97). -/
abbrev FinSet (r : State) : Prop := (r.buf.rd 47).getLsbD 0 = true

/-! ### The frames sent, byte for byte -/

/-- Bytes 20 to 22 of the IP header after `IpFinish`: as they were, or rewritten (R179). -/
def fragAndTtl (cfg : Config) (before : List Byte) : List Byte :=
  if cfg.ipNormalise then [0x40#8, 0x00#8, 64#8] else before

/-- An IPv4 header from its bytes before and after the checksum field, with its checksum (R179). -/
def ipHeader (cfg : Config) (before addresses : List Byte) : List Byte :=
  before ++ bytes16 (checksum cfg .ip (before ++ [0x00#8, 0x00#8] ++ addresses)) ++ addresses

/-- The first ten bytes of a reply's IP header: the request's, with a new total length (R178, R179). -/
def replyIpStart (s : State) (totlen : U16) : List Byte :=
  s.buf.slice 14 2 ++ bytes16 totlen ++ s.buf.slice 18 2 ++ fragAndTtl s.cfg (s.buf.slice 20 3) ++ [s.buf.rd 23]

/-- The addresses of a reply: this node, then the request's sender (R178). -/
def replyAddresses (s : State) : List Byte := s.ip.bytes ++ s.buf.slice 26 4

/-- A UDP or TCP segment from its bytes before and after the checksum field, with its checksum over the addresses and the
segment (R101, R153). -/
def segment (cfg : Config) (kind : Kind) (addresses before after : List Byte) : List Byte :=
  before ++ bytes16 (checksum cfg kind (addresses ++ before ++ [0x00#8, 0x00#8] ++ after)) ++ after

/-- The Ethernet header of a reply (R176). -/
def replyEth (s : State) : List Byte := s.buf.slice 6 6 ++ s.mac.bytes ++ s.buf.slice 12 2

/-- An operation that wrote and sent one frame: `RES` is its length, it was appended to `TXLOG`, `BUF` holds it from offset 0,
and every byte from its length on is as before (R30, R72, R306). -/
def Sends (s t : State) (frame : List Byte) : Prop :=
  t.txlog = s.txlog ++ [frame] ∧ t.res.toNat = frame.length ∧ ∀ a, t.buf.rd a = (frame[a]?).getD (s.buf.rd a)

/-- The SYN-ACK built from the request in `BUF` (R220, R210, R211, R98). -/
def synackFrame (s : State) : List Byte :=
  replyEth s ++ ipHeader s.cfg (replyIpStart s 44#16) (replyAddresses s) ++
    segment s.cfg .tcp (replyAddresses s)
      ([0x00#8, s.port] ++ s.buf.slice 34 2 ++ [0x00#8, 0x00#8, s.seq, 0x00#8] ++ bytes32 (s.buf.rd32 38 + 1#32) ++
        [0x60#8, 0x12#8] ++ s.buf.slice 48 2)
      (s.buf.slice 52 2 ++ [0x02#8, 0x04#8, hi s.cfg.mss, lo s.cfg.mss])

/-- The bare acknowledgment of the segment in `BUF` (R225, R210): `adv` is `max(1, DLEN)`. -/
def ackFrame (s : State) : List Byte :=
  replyEth s ++ ipHeader s.cfg (replyIpStart s 40#16) (replyAddresses s) ++
    segment s.cfg .tcp (replyAddresses s)
      ([0x00#8, s.port] ++ s.buf.slice 34 2 ++ s.buf.slice 42 4 ++
        bytes32 (s.buf.rd32 38 + BitVec.ofInt 32 (max 1 s.dlen.toInt)) ++ [0x50#8, 0x10#8] ++ s.buf.slice 48 2)
      (s.buf.slice 52 2)

/-- The ACK+PUSH+FIN built on the acknowledgment in `BUF` (R230): no address, port, sequence or window byte changes. -/
def ackdataFrame (s : State) (dlen : Nat) : List Byte :=
  s.buf.slice 0 14 ++ ipHeader s.cfg (replyIpStart s (u16 (40 + dlen))) (s.buf.slice 26 8) ++
    segment s.cfg .tcp (s.buf.slice 26 8) (s.buf.slice 34 13 ++ [0x19#8] ++ s.buf.slice 48 2)
      (s.buf.slice 52 2 ++ s.buf.slice 54 dlen)

/-- The UDP reply to the datagram in `BUF` (R200). -/
def udpFrame (s : State) (sport : U16) (payload : List Byte) : List Byte :=
  replyEth s ++ ipHeader s.cfg (replyIpStart s (u16 (28 + payload.length))) (replyAddresses s) ++
    segment s.cfg .udp (replyAddresses s) (bytes16 sport ++ s.buf.slice 34 2 ++ bytes16 (u16 (8 + payload.length))) payload

/-- The sequence-number field of a client segment (R235, R211). -/
def clientSeqField (s : State) (mss : Bool) (ackadv : U16) : List Byte :=
  if mss then [0x00#8, 0x00#8, s.seq, 0x00#8] else if ackadv = 0#16 then s.buf.slice 38 4 else s.buf.slice 42 4

/-- The acknowledgment field of a client segment (R235). -/
def clientAckField (s : State) (clrack : Bool) (ackadv : U16) : List Byte :=
  if clrack then [0x00#8, 0x00#8, 0x00#8, 0x00#8]
  else if ackadv = 0#16 then s.buf.slice 42 4
  else bytes32 (s.buf.rd32 38 + ackadv.setWidth 32)

/-- The client segment (R235), `dlen` payload bytes standing in `BUF` after its header. -/
def clientFrame (s : State) (dmac : Mac) (dip : Ip4) (dport sport : U16) (flags : Byte) (mss clrack : Bool) (ackadv : U16)
    (dlen : Nat) : List Byte :=
  dmac.bytes ++ s.mac.bytes ++ [0x08#8, 0x00#8] ++
    ipHeader s.cfg
      ([0x45#8, 0x00#8] ++ bytes16 (u16 (40 + (if mss then 4 else 0) + dlen)) ++ bytes16 s.ipid ++
        fragAndTtl s.cfg [0x40#8, 0x00#8, s.cfg.clientTtl] ++ [6#8])
      (s.ip.bytes ++ dip.bytes) ++
    segment s.cfg .tcp (s.ip.bytes ++ dip.bytes)
      (bytes16 sport ++ bytes16 dport ++ clientSeqField s mss ackadv ++ clientAckField s clrack ackadv ++
        [if mss then 0x60#8 else 0x50#8, flags] ++ bytes16 s.cfg.clientWindow)
      ([0x00#8, 0x00#8] ++ (if mss then [0x02#8, 0x04#8, hi s.cfg.mss, lo s.cfg.mss] else []) ++
        s.buf.slice (54 + (if mss then 4 else 0)) dlen)

/-- The bytes at 36 and 37 after the ICMP patch (R191). -/
def patchedIcmp (s : State) : List Byte :=
  [s.buf.rd 36 + 8#8, if 0xF7#8 < s.buf.rd 36 then s.buf.rd 37 + 1#8 else s.buf.rd 37]

/-- The bytes at 0 to 37 after an echo reply (R190): Ethernet and IP turned round, type 0, checksum patched. -/
def echoReplyStart (s : State) : List Byte :=
  replyEth s ++ ipHeader s.cfg (replyIpStart s (s.buf.rd16 16)) (replyAddresses s) ++ [0x00#8, s.buf.rd 35] ++ patchedIcmp s

/-! ### States that differ only where nothing reads -/

/-- Two states that agree but for registers R45 leaves unspecified and no operation may read: the identity while
`INITED = 0`, `HLEN` and `DLEN` while `SESV = 0`, and `SUM`. -/
def AgreeWhereRead (s s' : State) : Prop :=
  s' = { s with mac := s'.mac, ip := s'.ip, port := s'.port, hlen := s'.hlen, dlen := s'.dlen, sum := s'.sum } ∧
  (s.inited = true → s'.mac = s.mac ∧ s'.ip = s.ip ∧ s'.port = s.port) ∧
  (s.sesv = true → s'.hlen = s.hlen ∧ s'.dlen = s.dlen)

/-- How many frames `DISPATCH` sends for each outcome code (R275). -/
def framesFor (code : U16) : Nat :=
  if code = 8#16 then 2
  else if code = 2#16 ∨ code = 4#16 ∨ code = 5#16 ∨ code = 6#16 then 1
  else 0

end Sys2Proof.Claims

open Sys2Proof.Claims

/-! ### Encoding -/

/-- R124, R125: the decoder reads back every operation a command can carry. -/
def Obligations.DecodeInvertsEncode : Prop :=
  ∀ i : Instr, i.wellFormed = true → decode (encode i) = .ok i

/-- R124, R125: a byte string that decodes is the encoding of exactly that operation. -/
def Obligations.EncodeInvertsDecode : Prop :=
  ∀ (c : List Byte) (i : Instr), decode c = .ok i → encode i = c ∧ i.wellFormed = true

/-- R125, R122, R124: a command decodes to an operation exactly when it is legal: an opcode byte of the table, the length it
requires, the reserved bits of `ctl` clear. -/
def Obligations.LegalCommandsExactly : Prop :=
  ∀ c : List Byte, (∃ i : Instr, decode c = .ok i) ↔ Legal c

/-- R121, R122: words written out from the tables of the spec. -/
def Obligations.SpecWordsDecode : Prop :=
  decode [0x00#8, 0x02#8, 0x00#8, 0x00#8, 0x00#8, 0x00#8, 0x01#8, 0xC0#8, 0xA8#8, 0x00#8, 0x0A#8, 0x50#8]
    = .ok (.init ⟨0x02#8, 0x00#8, 0x00#8, 0x00#8, 0x00#8, 0x01#8⟩ ⟨192#8, 168#8, 0#8, 10#8⟩ 80#8) ∧
  decode [0x12#8, 0x00#8, 0x1A#8, 0x00#8, 0x2E#8] = .ok (.cksumTcp 26#16 46#16) ∧
  decode [0x44#8, 0x00#8, 0x02#8, 0x00#8, 0x01#8, 0x21#8] = .ok (.fill 2#16 [0x21#8]) ∧
  decode [0x32#8, 0x00#8, 0xFB#8] = .ok (.icmpReply 251#16) ∧
  decode [0x60#8] = .ok .dispatch

/-! ### Steps -/

/-- R120, R123: a step takes the next command, and when it decodes to an operation runs exactly that operation and appends
the response. -/
def Obligations.StepRunsDecodedCommand : Prop :=
  ∀ (s : State) (c : List Byte) (rest : List (List Byte)) (i : Instr), s.cmds = c :: rest → decode c = .ok i →
    step s = mapNext withResponse (exec i { s with cmds := rest })

/-- R124: an illegal command raises `IllegalCommand` (code 1) and changes no other state; a legal one decodes to exactly one
operation. -/
def Obligations.IllegalCommandRaises : Prop :=
  ∀ (s : State) (c : List Byte) (rest : List (List Byte)), s.cmds = c :: rest → s.fault = 0#8 →
    (¬Legal c → step s = .next { s with cmds := rest, fault := 1#8, resps := s.resps ++ [[1#8, hi s.res, lo s.res]] }) ∧
    (Legal c → ∃! i : Instr, decode c = .ok i)

/-- R299: "between commands the engine is idle and holds its state". -/
def Obligations.IdleEngineHoldsState : Prop :=
  ∀ s : State, s.cmds = [] → step s = .next s

/-- R123: every command, legal or not, refused or not, is answered by `FAULT` and `RES` as the command left them. -/
def Obligations.EveryCommandIsAnswered : Prop :=
  ∀ (s t : State) (c : List Byte) (rest : List (List Byte)), s.cmds = c :: rest → step s = .next t →
    t.cmds = rest ∧ t.resps = s.resps ++ [[t.fault, hi t.res, lo t.res]]

/-- A step always answers a next state. That a fault or a refused command is a next state, and that no step answers the outcomes
fault or refused, is the model's reading (log 7) of R292 and R293, which describe the entry into a fault and what every later
command does. -/
def Obligations.StepAlwaysAnswersNext : Prop :=
  ∀ s : State, ∃ t, step s = .next t

/-! ### Faults -/

/-- R293: while `FAULT != 0` every command is refused: no state changes, the response repeats `FAULT` and `RES`. -/
def Obligations.FaultedEngineRefuses : Prop :=
  ∀ s : State, s.fault ≠ 0#8 →
    (∀ i : Instr, exec i s = .next s) ∧
    ∀ (c : List Byte) (rest : List (List Byte)), s.cmds = c :: rest →
      step s = .next { s with cmds := rest, resps := s.resps ++ [[s.fault, hi s.res, lo s.res]] }

/-- R28: `INIT` sets `INITED`; `NotInitialised` (code 2) from every operation but `INIT` while `INITED = 0`; `AlreadyInitialised`
(code 3) from `INIT` while `INITED = 1`; neither fault changes anything else. -/
def Obligations.InitialisationGuards : Prop :=
  ∀ (i : Instr) (s : State), s.fault = 0#8 →
    (isInit i = true → s.inited = false → ∃ t, exec i s = .next t ∧ t.inited = true) ∧
    (isInit i = false → s.inited = false → exec i s = .next { s with fault := 2#8 }) ∧
    (isInit i = true → s.inited = true → exec i s = .next { s with fault := 3#8 })

/-- R292: an operation other than `DISPATCH` that raises a fault changes nothing but `FAULT`, which receives one of the six
codes. -/
def Obligations.FaultingOperationChangesOnlyFault : Prop :=
  ∀ (i : Instr) (s t : State), i ≠ .dispatch → s.fault = 0#8 → exec i s = .next t → t.fault ≠ 0#8 →
    t = { s with fault := t.fault } ∧ t.fault.toNat ≤ 6

/-- R31: only the first fault is recorded, and nothing but reset clears it. -/
def Obligations.FirstFaultStays : Prop :=
  ∀ s t : State, step s = .next t → (s.fault ≠ 0#8 → t.fault = s.fault) ∧ (s.fault = 0#8 → t.fault.toNat ≤ 6)

/-! ### Reset and invariants -/

/-- R45, R320: what reset leaves, for every instance; `IPID` and `SEQ` start at the instance's open parameters. (That
`State.reset` is the instance with R8's default parameters is the model's choice, logs 1 and 4.) -/
def Obligations.ResetLeaves : Prop :=
  ∀ cfg : Config,
    (State.resetWith cfg).inited = false ∧ (State.resetWith cfg).fault = 0#8 ∧ (State.resetWith cfg).sesv = false ∧
    (State.resetWith cfg).rxlen = 0#16 ∧ (State.resetWith cfg).res = 0#16 ∧ (State.resetWith cfg).txlog = [] ∧
    (State.resetWith cfg).ipid = cfg.ipidReset ∧ (State.resetWith cfg).seq = cfg.seqReset ∧
    ∀ a, (State.resetWith cfg).buf.rd a = Config.resetByte a

/-- The invariant of NPE holds after reset, for every instance. The clauses about `HLEN`, `DLEN` and `SUM` rest on the zeros of
log 2, the model's choice: R45 leaves the three unspecified. -/
def Obligations.InvariantAtReset : Prop :=
  ∀ cfg : Config, (State.resetWith cfg).Inv

/-- The invariant of NPE is kept by every step from every state that has it: `BUF` canonical and inside `CAP` (R61),
`FAULT` a code of R291, `HLEN` and `DLEN` values R23 names, `SUM` a value of `ACC_W` bits (R33), `RXLEN <= CAP` (R305), frames of 1
to `CAP` bytes (R306). -/
def Obligations.InvariantKeptByStep : Prop :=
  ∀ s t : State, s.Inv → step s = .next t → t.Inv

/-- R45: "An unspecified register is never read before it is written": two states that differ only in the identity while
`INITED = 0`, in `HLEN` and `DLEN` while `SESV = 0`, and in `SUM`, step to states that differ only so; their responses and
transmitted frames are equal. So no claim depends on the values logs 1 and 2 name for those registers. -/
def Obligations.UnspecifiedRegistersNeverRead : Prop :=
  ∀ s s' : State, AgreeWhereRead s s' → ∃ t t', step s = .next t ∧ step s' = .next t' ∧ AgreeWhereRead t t'

/-- R32, R160: no operation but `RECV` and `DISPATCH` depends on `RXLEN`. -/
def Obligations.RxlenBoundsNoAccess : Prop :=
  ∀ (i : Instr) (s : State) (n : U16), receives i = false →
    exec i { s with rxlen := n } = mapNext (fun t => { t with rxlen := n }) (exec i s)

/-! ### Who writes what -/

/-- R27: the identity is "never mutated thereafter": once `INITED = 1`, no step changes `MAC`, `IP`, `PORT` or `INITED`. -/
def Obligations.IdentityImmutable : Prop :=
  ∀ s t : State, s.inited = true → step s = .next t → t.mac = s.mac ∧ t.ip = s.ip ∧ t.port = s.port ∧ t.inited = true

/-- R22: `IPID` advances by 1 in every `TCP.CLIENT` that completes and in nothing else; `SEQ` by `SEQ_STEP` in every operation
that completes and starts an exchange and in nothing else; an operation that faults or is refused advances neither. -/
def Obligations.CountersAdvanceExactly : Prop :=
  ∀ (i : Instr) (s t : State), exec i s = .next t →
    (t.fault = 0#8 →
      t.ipid = s.ipid + (if isClient i then 1#16 else 0#16) ∧
      t.seq = s.seq + (if startsExchange i t.res then s.cfg.seqStep else 0#8)) ∧
    (t.fault ≠ 0#8 → t.ipid = s.ipid ∧ t.seq = s.seq)

/-- R37: no operation writes state outside its row of the table of write sets. -/
def Obligations.RegisterWriteSets : Prop :=
  ∀ (i : Instr) (s t : State), exec i s = .next t →
    (isInit i = false → t.mac = s.mac ∧ t.ip = s.ip ∧ t.port = s.port ∧ t.inited = s.inited) ∧
    (writesBuf i = false → t.buf = s.buf) ∧
    (isClient i = false → t.ipid = s.ipid) ∧
    (mayAdvanceSeq i = false → t.seq = s.seq) ∧
    (derives i = false → t.hlen = s.hlen ∧ t.dlen = s.dlen) ∧
    (derives i = false → receives i = false → t.sesv = s.sesv) ∧
    (receives i = false → t.rxlen = s.rxlen ∧ t.rx = s.rx) ∧
    (transmits i = false → t.txlog = s.txlog) ∧
    (i ≠ .dispatch → t.reqlog = s.reqlog) ∧
    t.cfg = s.cfg ∧ t.handler = s.handler ∧ t.cmds = s.cmds ∧ t.resps = s.resps

/-- R280, R306: a step makes at most one receive, one handler call and two sends; the transmit log only grows, by frames of 1 to
`CAP` bytes. -/
def Obligations.StepIsBounded : Prop :=
  ∀ s t : State, step s = .next t →
    (∃ new : List (List Byte), t.txlog = s.txlog ++ new ∧ new.length ≤ 2 ∧ ∀ f ∈ new, 1 ≤ f.length ∧ f.length ≤ s.cap) ∧
    (t.rx = s.rx ∨ t.rx = s.rx.tail) ∧ (t.reqlog = s.reqlog ∨ ∃ q, t.reqlog = s.reqlog ++ [q])

/-- R343: after `k` SYN-ACKs `SEQ` has advanced by `2 k` modulo 256, so it first repeats after 128; `IPID` has advanced by `k`
modulo 65536 after `k` client segments. -/
def Obligations.CountersWrap : Prop :=
  (∀ (s : State) (k : Nat), Ready s → s.cfg.seqStep = 2#8 →
    ∃ t, repeated .tcpSynack k s = some t ∧ (t.seq = s.seq ↔ k % 128 = 0)) ∧
  (∀ (s : State) (k : Nat) (dmac : Mac) (dip : Ip4) (dport sport : U16) (flags : Byte) (mss clrack : Bool) (ackadv dlen : U16),
    Ready s → 54 + (if mss then 4 else 0) + dlen.toNat ≤ s.cap →
    ∃ t, repeated (.tcpClient dmac dip dport sport flags mss clrack ackadv dlen) k s = some t ∧
      (t.ipid = s.ipid ↔ k % 65536 = 0))

/-! ### INIT and RECV -/

/-- R261: `INIT` while `INITED = 0` writes the identity, sets `INITED`, leaves 0 in `RES`, and changes nothing else; while
`INITED = 1` it raises `AlreadyInitialised`. -/
def Obligations.InitWritesIdentity : Prop :=
  ∀ (mac : Mac) (ip : Ip4) (port : Byte) (s : State), s.fault = 0#8 →
    encode (.init mac ip port) = 0x00#8 :: (mac.bytes ++ ip.bytes ++ [port]) ∧
    (s.inited = false →
      exec (.init mac ip port) s = .next { s with mac := mac, ip := ip, port := port, inited := true, res := 0#16 }) ∧
    (s.inited = true → exec (.init mac ip port) s = .next { s with fault := 3#8 })

/-- R265: `RECV` takes the next frame `f` of the input stream, of at most `CAP` bytes: it replaces `BUF[0..n-1]`, `RXLEN` and `RES`
are `n`, `SESV` is 0, and nothing else changes; the empty frame changes no byte. -/
def Obligations.RecvTakesOneFrame : Prop :=
  ∀ (s : State) (f : List Byte) (rest : List (List Byte)), Ready s → s.rx = f :: rest → f.length ≤ s.cap →
    encode .recv = [0x61#8] ∧
    ∃ t, exec .recv s = .next t ∧
      t = { s with buf := t.buf, rxlen := u16 f.length, sesv := false, res := u16 f.length, rx := rest } ∧
      ∀ a, t.buf.rd a = (f[a]?).getD (s.buf.rd a)

/-- The model's choices (logs 8 and 9), inside R305: on an exhausted stream `RECV` receives nothing; of a frame longer than `CAP`
the device delivers some frame of at most `CAP` bytes. -/
def Obligations.RecvBeyondStream : Prop :=
  ∀ s : State, Ready s →
    (s.rx = [] → exec .recv s = .next { s with rxlen := 0#16, sesv := false, res := 0#16 }) ∧
    ∀ (f : List Byte) (rest : List (List Byte)), s.rx = f :: rest → s.cap < f.length →
      ∃ (g : List Byte) (t : State), exec .recv s = .next t ∧ g.length ≤ s.cap ∧
        t = { s with buf := t.buf, rxlen := u16 g.length, sesv := false, res := u16 g.length, rx := rest } ∧
        ∀ a, t.buf.rd a = (g[a]?).getD (s.buf.rd a)

/-! ### The Checksum Engine -/

/-- R150 to R152: a checksum command completes with `RES` the complement of the folded total of its terms, over the
mathematical integers, and changes nothing else but `SUM`; `BadOperand` (code 5) comes before `BufferBounds` (code 4). -/
def Obligations.ChecksumCommands : Prop :=
  ∀ (kind : Kind) (off len : U16) (s : State), Ready s →
    encode (cksumInstr kind off len) = cksumOpcode kind :: [hi off, lo off, hi len, lo len] ∧
    ((kind ≠ .ip → 8 ≤ len.toNat) → (len.toNat = 0 ∨ off.toNat + len.toNat ≤ s.cap) →
      ∃ t, exec (cksumInstr kind off len) s = .next t ∧ t = { s with res := t.res, sum := t.sum } ∧
        t.res.toNat = 65535 - folded (terms s.cfg kind (s.buf.slice off.toNat len.toNat)).sum) ∧
    (kind ≠ .ip → len.toNat < 8 → exec (cksumInstr kind off len) s = .next { s with fault := 5#8 }) ∧
    ((kind ≠ .ip → 8 ≤ len.toNat) → 0 < len.toNat → s.cap < off.toNat + len.toNat →
      exec (cksumInstr kind off len) s = .next { s with fault := 4#8 })

/-- R146: the `ACC_W`-bit running sum never wraps for any length a command can carry. -/
def Obligations.RunningSumNeverWraps : Prop :=
  ∀ (cfg : Config) (kind : Kind) (bytes : List Byte), bytes.length ≤ 65535 →
    sumWords cfg.accW.val (injected cfg kind bytes.length) bytes = (terms cfg kind bytes).sum

/-- R147: a 16-bit one's-complement accumulator fed the same terms in any order ends with the folded running sum. -/
def Obligations.EndAroundCarryEquivalence : Prop :=
  ∀ (cfg : Config) (kind : Kind) (bytes : List Byte) (order : List Nat), bytes.length ≤ 65535 →
    order.Perm (terms cfg kind bytes) → order.foldl endAround 0 = foldedSum cfg kind bytes

/-- R149: with a checksum field at an even distance from the start of the range, evaluating with the field zeroed, storing the
result big-endian and evaluating again gives 0x0000. -/
def Obligations.ChecksumSelfVerification : Prop :=
  ∀ (kind : Kind) (off len : U16) (k : Nat) (s : State), Ready s → (kind ≠ .ip → 8 ≤ len.toNat) →
    off.toNat + len.toNat ≤ s.cap → k % 2 = 0 → k + 2 ≤ len.toNat →
    ∃ t u, exec (cksumInstr kind off len) { s with buf := s.buf.wr16 (off.toNat + k) 0#16 } = .next t ∧
      exec (cksumInstr kind off len) { t with buf := t.buf.wr16 (off.toNat + k) t.res } = .next u ∧ u.res = 0#16

/-- R154 (b), (c): the checksum is 0xFFFF exactly when every term is zero, never for `UDP` and `TCP` with their protocol numbers;
it is 0x0000 exactly when the terms are not all zero and their total is a multiple of 0xFFFF. -/
def Obligations.ChecksumExtremes : Prop :=
  ∀ (cfg : Config) (kind : Kind) (bytes : List Byte), bytes.length ≤ 65535 →
    (checksum cfg kind bytes = 0xFFFF#16 ↔ ∀ w ∈ terms cfg kind bytes, w = 0) ∧
    (kind ≠ .ip → cfg.protoUdp = 17#8 → cfg.protoTcp = 6#8 → checksum cfg kind bytes ≠ 0xFFFF#16) ∧
    (checksum cfg kind bytes = 0x0000#16 ↔
      (∃ w ∈ terms cfg kind bytes, w ≠ 0) ∧ (terms cfg kind bytes).sum % 65535 = 0)

/-! ### The Frame Classifier -/

/-- R161 to R163: each classifier answers 1 or 0 in `RES` by exactly its comparisons, and changes nothing else. -/
def Obligations.ClassifierAnswers : Prop :=
  ∀ (len : U16) (s : State), Ready s →
    encode (.clsArp len) = [0x20#8, hi len, lo len] ∧ encode (.clsIp4 len) = [0x21#8, hi len, lo len] ∧
    encode .clsArprply = [0x22#8] ∧
    exec (.clsArp len) s = .next { s with res := if ArpForMe s len.toNat then 1#16 else 0#16 } ∧
    exec (.clsIp4 len) s = .next { s with res := if Ip4ForMe s len.toNat then 1#16 else 0#16 } ∧
    exec .clsArprply s = .next { s with res := if ArpReplyIsMine s then 1#16 else 0#16 }

/-- R164: `CLS.ARP` and `CLS.IP4` never both answer 1; where `CLS.ARPRPLY` answers 1, so does `CLS.ARP` with any length of at
least `ARP_MIN`. -/
def Obligations.ClassifierRelations : Prop :=
  ∀ (len len' : U16) (s t u v : State), Ready s → exec (.clsArp len) s = .next t → exec (.clsIp4 len') s = .next u →
    exec .clsArprply s = .next v →
    ¬(t.res = 1#16 ∧ u.res = 1#16) ∧ (v.res = 1#16 → s.cfg.arpMin ≤ len.toNat → t.res = 1#16)

/-! ### ARP, ICMP, UDP -/

/-- R185: `ARP.REPLY` sends the 42-byte reply to the request in `BUF` and changes nothing else. -/
def Obligations.ArpReplySendsReply : Prop :=
  ∀ s : State, Ready s →
    encode .arpReply = [0x30#8] ∧
    ∃ t, exec .arpReply s = .next t ∧ t = { s with buf := t.buf, res := 42#16, txlog := t.txlog } ∧
      Sends s t (s.buf.slice 6 6 ++ s.mac.bytes ++ s.buf.slice 12 8 ++ [0x00#8, 0x02#8] ++ s.mac.bytes ++ s.ip.bytes ++
        s.buf.slice 22 6 ++ s.buf.slice 28 4)

/-- R186: `ARP.REQ` sends the 42-byte request built from the identity and its operands and changes nothing else. -/
def Obligations.ArpRequestSendsRequest : Prop :=
  ∀ (dmac : Mac) (tip : Ip4) (s : State), Ready s →
    encode (.arpReq dmac tip) = 0x31#8 :: (dmac.bytes ++ tip.bytes) ∧
    ∃ t, exec (.arpReq dmac tip) s = .next t ∧ t = { s with buf := t.buf, res := 42#16, txlog := t.txlog } ∧
      Sends s t (dmac.bytes ++ s.mac.bytes ++ [0x08#8, 0x06#8, 0x00#8, 0x01#8, 0x08#8, 0x00#8, 0x06#8, 0x04#8, 0x00#8, 0x01#8] ++
        s.mac.bytes ++ s.ip.bytes ++ [0#8, 0#8, 0#8, 0#8, 0#8, 0#8] ++ tip.bytes)

/-- R190: `ICMP.REPLY` with `1 <= len <= CAP` rewrites offsets 0 to 37 into the echo reply, leaves every other byte, sends `len`
bytes, and changes nothing else but `SUM`; `len = 0` raises `BadOperand`, `len > CAP` raises `BufferBounds`. -/
def Obligations.IcmpReplySendsEcho : Prop :=
  ∀ (len : U16) (s : State), Ready s →
    encode (.icmpReply len) = [0x32#8, hi len, lo len] ∧
    (len ≠ 0#16 → len.toNat ≤ s.cap →
      ∃ t, exec (.icmpReply len) s = .next t ∧
        t = { s with buf := t.buf, sum := t.sum, res := len, txlog := s.txlog ++ [t.buf.slice 0 len.toNat] } ∧
        ∀ a, t.buf.rd a = ((echoReplyStart s)[a]?).getD (s.buf.rd a)) ∧
    (len = 0#16 → exec (.icmpReply len) s = .next { s with fault := 5#8 }) ∧
    (s.cap < len.toNat → exec (.icmpReply len) s = .next { s with fault := 4#8 })

/-- R191: the patched ICMP checksum is the exact one's-complement update by 0x0800, but for the one corner where a carry is
lost and it is 0x0100 too small. -/
def Obligations.IcmpPatchExactness : Prop :=
  ∀ (len : U16) (s : State), Ready s → len ≠ 0#16 → len.toNat ≤ s.cap →
    ∃ t, exec (.icmpReply len) s = .next t ∧
      (t.buf.rd16 36).toNat =
        if 0xF8 ≤ (s.buf.rd 36).toNat ∧ s.buf.rd 37 = 0xFF#8 then endAround (s.buf.rd16 36).toNat 0x0800 - 0x0100
        else endAround (s.buf.rd16 36).toNat 0x0800

/-- R200: `UDP.REPLY` copies `m = min(n, UDP_MAX)` bytes, sends the `42 + m` byte reply and changes nothing else but `SUM`;
where it does not fit it raises `BufferBounds` and changes nothing else. -/
def Obligations.UdpReplySendsDatagram : Prop :=
  ∀ (sport : U16) (data : List Byte) (s : State), Ready s →
    encode (.udpReply sport data) =
      0x33#8 :: ([hi sport, lo sport, hi (u16 data.length), lo (u16 data.length)] ++ data) ∧
    (42 + min data.length s.cfg.udpMax ≤ s.cap →
      ∃ t, exec (.udpReply sport data) s = .next t ∧
        t = { s with buf := t.buf, sum := t.sum, res := u16 (42 + min data.length s.cfg.udpMax), txlog := t.txlog } ∧
        Sends s t (udpFrame s sport (data.take s.cfg.udpMax))) ∧
    (s.cap < 42 + min data.length s.cfg.udpMax → exec (.udpReply sport data) s = .next { s with fault := 4#8 })

/-! ### TCP -/

/-- R220, R210, R211: `TCP.SYNACK` sends the 58-byte SYN-ACK with the MSS option, advances `SEQ`, and changes nothing else but
`SUM`. -/
def Obligations.SynAckSendsHandshake : Prop :=
  ∀ s : State, Ready s →
    encode .tcpSynack = [0x40#8] ∧
    ∃ t, exec .tcpSynack s = .next t ∧
      t = { s with buf := t.buf, sum := t.sum, res := 58#16, seq := s.seq + s.cfg.seqStep, txlog := t.txlog } ∧
      Sends s t (synackFrame s)

/-- R225: `TCP.ACK` with `SESV = 1` sends the 54-byte bare acknowledgment and changes nothing else but `SUM`; with `SESV = 0` it
raises `StaleSession` (code 6) and changes nothing else. -/
def Obligations.AckSendsAcknowledgment : Prop :=
  ∀ s : State, Ready s →
    encode .tcpAck = [0x41#8] ∧
    (s.sesv = true →
      ∃ t, exec .tcpAck s = .next t ∧ t = { s with buf := t.buf, sum := t.sum, res := 54#16, txlog := t.txlog } ∧
        Sends s t (ackFrame s)) ∧
    (s.sesv = false → exec .tcpAck s = .next { s with fault := 6#8 })

/-- R230: `TCP.ACKDATA` sends the ACK+PUSH+FIN of `54 + dlen` bytes and changes nothing else but `SUM`; where it does not fit it
raises `BufferBounds` and changes nothing else. -/
def Obligations.AckDataSendsResponse : Prop :=
  ∀ (dlen : U16) (s : State), Ready s →
    encode (.tcpAckdata dlen) = [0x42#8, hi dlen, lo dlen] ∧
    (54 + dlen.toNat ≤ s.cap →
      ∃ t, exec (.tcpAckdata dlen) s = .next t ∧
        t = { s with buf := t.buf, sum := t.sum, res := u16 (54 + dlen.toNat), txlog := t.txlog } ∧
        Sends s t (ackdataFrame s dlen.toNat)) ∧
    (s.cap < 54 + dlen.toNat → exec (.tcpAckdata dlen) s = .next { s with fault := 4#8 })

/-- R235: `TCP.CLIENT` sends the client segment, advances `IPID` by 1 and, with `MSS`, `SEQ` by `SEQ_STEP`, and changes nothing
else but `SUM`; where it does not fit it raises `BufferBounds` and changes nothing else. -/
def Obligations.ClientSendsSegment : Prop :=
  ∀ (dmac : Mac) (dip : Ip4) (dport sport : U16) (flags : Byte) (mss clrack : Bool) (ackadv dlen : U16) (s : State), Ready s →
    encode (.tcpClient dmac dip dport sport flags mss clrack ackadv dlen) =
      0x43#8 :: (dmac.bytes ++ dip.bytes ++ [hi dport, lo dport, hi sport, lo sport, flags] ++
        [(if mss then 1#8 else 0#8) + (if clrack then 2#8 else 0#8), hi ackadv, lo ackadv, hi dlen, lo dlen]) ∧
    (54 + (if mss then 4 else 0) + dlen.toNat ≤ s.cap →
      ∃ t, exec (.tcpClient dmac dip dport sport flags mss clrack ackadv dlen) s = .next t ∧
        t = { s with buf := t.buf, sum := t.sum, res := u16 (54 + (if mss then 4 else 0) + dlen.toNat), ipid := s.ipid + 1#16, seq := if mss then s.seq + s.cfg.seqStep else s.seq, txlog := t.txlog } ∧
        Sends s t (clientFrame s dmac dip dport sport flags mss clrack ackadv dlen.toNat)) ∧
    (s.cap < 54 + (if mss then 4 else 0) + dlen.toNat →
      exec (.tcpClient dmac dip dport sport flags mss clrack ackadv dlen) s = .next { s with fault := 4#8 })

/-- R240: `FILL` writes `text` at `54 + pos`, leaves `pos + n` in `RES`, and changes nothing else; where it does not fit it raises
`BufferBounds` and changes nothing else. -/
def Obligations.FillPlacesText : Prop :=
  ∀ (pos : U16) (text : List Byte) (s : State), Ready s →
    encode (.fill pos text) = 0x44#8 :: ([hi pos, lo pos, hi (u16 text.length), lo (u16 text.length)] ++ text) ∧
    (54 + pos.toNat + text.length ≤ s.cap →
      ∃ t, exec (.fill pos text) s = .next t ∧ t = { s with buf := t.buf, res := t.res } ∧
        t.res.toNat = pos.toNat + text.length ∧
        (∀ k, k < text.length → some (t.buf.rd (54 + pos.toNat + k)) = text[k]?) ∧
        ∀ a, (a < 54 + pos.toNat ∨ 54 + pos.toNat + text.length ≤ a) → t.buf.rd a = s.buf.rd a) ∧
    (s.cap < 54 + pos.toNat + text.length → exec (.fill pos text) s = .next { s with fault := 4#8 })

/-- R149, R153: every UDP or TCP frame sent, by `UDP.REPLY`, by the four TCP transcoders or by `DISPATCH` with the codes 5, 6 and 8,
carries an IP header checksum and a segment checksum that verify to zero. -/
def Obligations.SentChecksumsVerify : Prop :=
  ∀ (kind : Kind) (i : Instr) (s t : State), Ready s →
    ((kind = .udp ∧ ∃ sport data, i = .udpReply sport data) ∨
      (kind = .tcp ∧ (i = .tcpSynack ∨ i = .tcpAck ∨ (∃ dlen, i = .tcpAckdata dlen) ∨ isClient i = true ∨
        (i = .dispatch ∧ (t.res = 5#16 ∨ t.res = 6#16 ∨ t.res = 8#16))))) →
    exec i s = .next t → t.fault = 0#8 →
    ∃ new : List (List Byte), t.txlog = s.txlog ++ new ∧ new.length = (if i = .dispatch then framesFor t.res else 1) ∧
      ∀ f ∈ new, checksum s.cfg .ip ((f.drop 14).take 20) = 0#16 ∧ checksum s.cfg kind (f.drop 26) = 0#16

/-- R240, R128: two texts placed one after the other by `FILL2` stand in the buffer as their concatenation placed by one `FILL`, and
both leave the same position in `RES`. -/
def Obligations.TwoFillsConcatenate : Prop :=
  ∀ (a b : List Byte) (s : State), Ready s → 54 + a.length + b.length ≤ s.cap →
    ∃ t u, execList (Pseudo.fill2 a b).expand s = .next t ∧ exec (.fill 0#16 (a ++ b)) s = .next u ∧ t.res = u.res ∧
      t.res = u16 (a.length + b.length) ∧ (∀ x, t.buf.rd x = u.buf.rd x) ∧ t = { u with buf := t.buf }

/-! ### The Session Helper -/

/-- R251: `SES.DERIVE` derives `HLEN` from the header-length nibble and `DLEN` from the IP total length, sets `SESV`, writes `RES`,
and changes nothing else. `RES` is `DLEN` in an instance that follows R251 there, and 0 in one that follows the last item of R30: the
spec has both, and that an instance has one of them is the model's choice (log 20). -/
def Obligations.SesDeriveComputes : Prop :=
  ∀ s : State, Ready s →
    encode .sesDerive = [0x50#8] ∧
    ∃ t, exec .sesDerive s = .next t ∧
      t = { s with hlen := t.hlen, dlen := t.dlen, sesv := true, res := t.res } ∧
      (s.cfg.deriveResult = .dataLength → t.res = t.dlen) ∧ (s.cfg.deriveResult = .bytesSent → t.res = 0#16) ∧
      t.hlen.toNat = 4 * ((s.buf.rd 46).toNat / 16) ∧
      t.dlen.toInt =
        (let d : Int := ((s.buf.rd 16).toNat * 256 + (s.buf.rd 17).toNat : Nat) - 20 - t.hlen.toNat
         if 1 ≤ d ∧ d ≤ 32767 then d else 0)

/-- R252: the closed form of the data length is the 16-bit two's-complement subtraction with everything not positive replaced
by 0. -/
def Obligations.DataLengthIsSignedClamp : Prop :=
  ∀ totlen hlen : U16, hlen.toNat ≤ 60 →
    dataLength totlen hlen = if 0 < (totlen - 20#16 - hlen).toInt then totlen - 20#16 - hlen else 0#16

/-- R253: `SES.POFF` with `SESV = 1` answers the sentinel 0 where `DLEN = 0` and `34 + HLEN` otherwise, one of 34, 38, ..., 94 for the
values of R23, and changes nothing else; with `SESV = 0` it raises `StaleSession` and changes nothing else. -/
def Obligations.SesPoffAnswers : Prop :=
  ∀ s : State, Ready s →
    encode .sesPoff = [0x51#8] ∧
    (s.sesv = true → exec .sesPoff s = .next { s with res := if s.dlen = 0#16 then 0#16 else 34#16 + s.hlen }) ∧
    (s.sessionLegal →
      34 ≤ (34#16 + s.hlen).toNat ∧ (34#16 + s.hlen).toNat ≤ 94 ∧ ((34#16 + s.hlen).toNat - 34) % 4 = 0) ∧
    (s.sesv = false → exec .sesPoff s = .next { s with fault := 6#8 })

/-! ### The Dispatch Loop; `s.linkReceive` is the state after the receive (`RecvTakesOneFrame` says what it holds) -/

/-- R270, R271, R273, R274: the frames `DISPATCH` drops: none received (1), neither ARP request nor IPv4 for this node (3), no rule (9).
Nothing but the receive and `RES` happens. -/
def Obligations.DispatchDrops : Prop :=
  ∀ s r : State, Ready s → r = s.linkReceive →
    (r.rxlen = 0#16 → exec .dispatch s = .next { r with res := 1#16 }) ∧
    (r.rxlen ≠ 0#16 → ¬ArpRequest r → ¬Ip4ForMe r r.rxlen.toNat → exec .dispatch s = .next { r with res := 3#16 }) ∧
    (r.rxlen ≠ 0#16 → Ip4ForMe r r.rxlen.toNat → ¬EchoRequest r → ¬(TcpSegment r ∧ (SynSet r ∨ AckSet r)) →
      exec .dispatch s = .next { r with res := 9#16 })

/-- R270 rules 2, 4 and 5: an ARP request, an echo request and a SYN are answered by the one operation the rule names, run on the
frame received; `RES` holds the rule's number. -/
def Obligations.DispatchReplies : Prop :=
  ∀ s r : State, Ready s → r = s.linkReceive → r.rxlen ≠ 0#16 →
    (ArpRequest r → ∃ u, exec .arpReply r = .next u ∧ exec .dispatch s = .next { u with res := 2#16 }) ∧
    (EchoRequest r → ∃ u, exec (.icmpReply r.rxlen) r = .next u ∧ u.fault = 0#8 ∧
      exec .dispatch s = .next { u with res := 4#16 }) ∧
    (TcpSegment r → SynSet r → ∃ u, exec .tcpSynack r = .next u ∧ exec .dispatch s = .next { u with res := 5#16 })

/-- R274 rules 6 and 7: an `ACK` without `SYN` and without payload is acknowledged if `FIN` is set and dropped otherwise. -/
def Obligations.DispatchBareSegments : Prop :=
  ∀ s r : State, Ready s → r = s.linkReceive → r.rxlen ≠ 0#16 → TcpSegment r → ¬SynSet r → AckSet r →
    ∃ d, exec .sesDerive r = .next d ∧
      (d.dlen = 0#16 → FinSet r → ∃ u, exec .tcpAck d = .next u ∧ exec .dispatch s = .next { u with res := 6#16 }) ∧
      (d.dlen = 0#16 → ¬FinSet r → exec .dispatch s = .next { d with res := 7#16 })

/-- R276: rule 8 is `FILL`, `TCP.ACK`, `TCP.ACKDATA` on the handler's response to the request as received; where the request or the
response does not fit it raises `BufferBounds` with the receive and `SES.DERIVE` in effect and nothing sent. -/
def Obligations.DispatchDataExchange : Prop :=
  ∀ s r : State, Ready s → r = s.linkReceive → r.rxlen ≠ 0#16 → TcpSegment r → ¬SynSet r → AckSet r →
    ∃ d, exec .sesDerive r = .next d ∧
      (d.dlen ≠ 0#16 → s.cap < 34 + d.hlen.toNat + d.dlen.toNat →
        exec .dispatch s = .next { d with res := s.res, fault := 4#8 }) ∧
      ∀ req resp : List Byte, req = r.buf.slice (34 + d.hlen.toNat) d.dlen.toNat → resp = s.answer req →
        (d.dlen ≠ 0#16 → 34 + d.hlen.toNat + d.dlen.toNat ≤ s.cap → s.cap < 54 + resp.length →
          exec .dispatch s = .next { d with res := s.res, fault := 4#8, reqlog := s.reqlog ++ [req] }) ∧
        (d.dlen ≠ 0#16 → 34 + d.hlen.toNat + d.dlen.toNat ≤ s.cap → 54 + resp.length ≤ s.cap →
          ∃ f a t, exec (.fill 0#16 resp) { d with reqlog := s.reqlog ++ [req] } = .next f ∧ exec .tcpAck f = .next a ∧
            exec (.tcpAckdata (u16 resp.length)) a = .next t ∧ exec .dispatch s = .next { t with res := 8#16 })

/-- R276: a data segment yields exactly two frames: an ACK (flags 0x10, total length 40, 54 bytes) and an ACK+PUSH+FIN (flags 0x19,
total length 40 + payload length) that carries the handler's response, with the same sequence and acknowledgment numbers; the
acknowledgment advances the peer's sequence number by `DLEN`. -/
def Obligations.DataSegmentYieldsTwoFrames : Prop :=
  ∀ (s r : State) (req resp : List Byte), Ready s → r = s.linkReceive → r.rxlen ≠ 0#16 → TcpSegment r → ¬SynSet r → AckSet r →
    dataLength (r.buf.rd16 16) (headerLength r.buf) ≠ 0#16 →
    34 + (headerLength r.buf).toNat + (dataLength (r.buf.rd16 16) (headerLength r.buf)).toNat ≤ s.cap →
    req = r.buf.slice (34 + (headerLength r.buf).toNat) (dataLength (r.buf.rd16 16) (headerLength r.buf)).toNat →
    resp = s.answer req → 54 + resp.length ≤ s.cap →
    ∃ t f g, exec .dispatch s = .next t ∧ t.res = 8#16 ∧ t.fault = 0#8 ∧ t.reqlog = s.reqlog ++ [req] ∧
      t.txlog = s.txlog ++ [f, g] ∧
      f.length = 54 ∧ (f.drop 16).take 2 = bytes16 40#16 ∧ f[47]? = some 0x10#8 ∧
      (f.drop 42).take 4 = bytes32 (r.buf.rd32 38 + (dataLength (r.buf.rd16 16) (headerLength r.buf)).setWidth 32) ∧
      g.length = 54 + resp.length ∧ (g.drop 16).take 2 = bytes16 (u16 (40 + resp.length)) ∧ g[47]? = some 0x19#8 ∧
      g.drop 54 = resp ∧ (g.drop 34).take 12 = (f.drop 34).take 12 ∧ g.take 14 = f.take 14

/-- R275: a `DISPATCH` that raises no fault leaves an outcome code from 1 to 9 in `RES` and sends the number of frames R275 gives for
that code; one that raises a fault sends nothing and leaves `RES`. -/
def Obligations.DispatchOutcomeCodes : Prop :=
  ∀ s t : State, Ready s → exec .dispatch s = .next t →
    (t.fault = 0#8 → 1 ≤ t.res.toNat ∧ t.res.toNat ≤ 9 ∧
      ∃ new : List (List Byte), t.txlog = s.txlog ++ new ∧ new.length = framesFor t.res) ∧
    (t.fault ≠ 0#8 → t.fault = 4#8 ∧ t.txlog = s.txlog ∧ t.res = s.res ∧ t.ipid = s.ipid ∧ t.seq = s.seq)
end

