-- ==== Sys2Proof/Laws/Memory.lean ====
section
/-! SUPPORT. What each operation on the Packet Buffer does: which byte a later read gives, that the canonical form is kept,
and which offsets are listed afterwards. -/

namespace Sys2Proof.Machine

/-! ### One byte -/

theorem Memory.stored_wr (m : Memory) (a : Nat) (v : Byte) (b : Nat) :
    (m.wr a v).stored b = if b = a then some v else m.stored b := by
  induction m with
  | nil => simp [Memory.wr, Memory.stored]
  | cons x m ih =>
    obtain ⟨c, w⟩ := x
    simp only [Memory.wr]
    split
    · simp [Memory.stored]
    · split
      · subst_vars
        by_cases h : b = c <;> simp [Memory.stored, h]
      · by_cases h : b = c
        · simp [Memory.stored, h]
          omega
        · simp [Memory.stored, h, ih]

/-- A read after a write (R63, R81): the byte written at that offset, every other byte as before. -/
theorem Memory.rd_wr (m : Memory) (a : Nat) (v : Byte) (b : Nat) :
    (m.wr a v).rd b = if b = a then v else m.rd b := by
  simp only [Memory.rd, Memory.stored_wr]
  split <;> simp

@[simp] theorem Memory.rd_wr_same (m : Memory) (a : Nat) (v : Byte) : (m.wr a v).rd a = v := by
  simp [Memory.rd_wr]

theorem Memory.rd_wr_ne (m : Memory) {a b : Nat} (v : Byte) (h : b ≠ a) : (m.wr a v).rd b = m.rd b := by
  simp [Memory.rd_wr, h]

theorem Memory.mem_wr {m : Memory} {a : Nat} {v : Byte} {x : Host.Cell} (h : x ∈ m.wr a v) : x = (a, v) ∨ x ∈ m := by
  induction m with
  | nil => simpa [Memory.wr] using h
  | cons y m ih =>
    obtain ⟨c, w⟩ := y
    simp only [Memory.wr] at h
    split at h
    · simpa using h
    · split at h
      · simp only [List.mem_cons] at h ⊢
        tauto
      · simp only [List.mem_cons] at h ⊢
        rcases h with h | h
        · exact .inr (.inl h)
        · exact (ih h).imp id .inr

theorem Memory.wf_wr {m : Memory} (h : m.wf) (a : Nat) (v : Byte) : (m.wr a v).wf := by
  induction m with
  | nil => simp [Memory.wr]
  | cons y m ih =>
    obtain ⟨c, w⟩ := y
    have hm : Memory.wf m := (List.pairwise_cons.mp h).2
    have hc : ∀ x ∈ m, c < x.1 := (List.pairwise_cons.mp h).1
    simp only [Memory.wr]
    split
    · rename_i hac
      refine List.pairwise_cons.mpr ⟨?_, h⟩
      intro x hx
      rcases List.mem_cons.mp hx with rfl | hx
      · exact hac
      · exact hac.trans (hc x hx)
    · split
      · subst_vars
        exact List.pairwise_cons.mpr ⟨hc, hm⟩
      · refine List.pairwise_cons.mpr ⟨?_, ih hm⟩
        intro x hx
        rcases Memory.mem_wr hx with rfl | hx
        · show c < a
          omega
        · exact hc x hx

theorem Memory.inside_wr {cap : Nat} {m : Memory} (h : m.inside cap) {a : Nat} (ha : a < cap) (v : Byte) :
    (m.wr a v).inside cap := by
  intro x hx
  rcases Memory.mem_wr hx with rfl | hx
  · exact ha
  · exact h x hx

/-! ### Byte strings -/

@[simp] theorem Memory.wrBytes_nil (m : Memory) (a : Nat) : m.wrBytes a [] = m := rfl

@[simp] theorem Memory.wrBytes_cons (m : Memory) (a : Nat) (v : Byte) (bytes : List Byte) :
    m.wrBytes a (v :: bytes) = (m.wr a v).wrBytes (a + 1) bytes := rfl

/-- A read after a byte string was written (R12, R72): the string's byte inside it, every other byte as before. -/
theorem Memory.rd_wrBytes (bytes : List Byte) : ∀ (m : Memory) (a b : Nat),
    (m.wrBytes a bytes).rd b = if a ≤ b then (bytes[b - a]?).getD (m.rd b) else m.rd b := by
  induction bytes with
  | nil => intro m a b; simp
  | cons v bytes ih =>
    intro m a b
    rw [Memory.wrBytes_cons, ih, Memory.rd_wr]
    by_cases h : a + 1 ≤ b
    · have h2 : b - a = (b - (a + 1)) + 1 := by omega
      have h3 : a ≤ b := by omega
      have h4 : b ≠ a := by omega
      simp [h, h2, h3, h4]
    · by_cases h5 : b = a
      · subst h5; simp
      · have h6 : ¬ a ≤ b := by omega
        simp [h, h5, h6]

theorem Memory.rd_wrBytes_inside (m : Memory) (a k : Nat) (bytes : List Byte) (h : k < bytes.length) :
    (m.wrBytes a bytes).rd (a + k) = bytes[k] := by
  simp [Memory.rd_wrBytes, h]

theorem Memory.rd_wrBytes_outside (m : Memory) (a b : Nat) (bytes : List Byte) (h : b < a ∨ a + bytes.length ≤ b) :
    (m.wrBytes a bytes).rd b = m.rd b := by
  rw [Memory.rd_wrBytes]
  split
  · have : bytes.length ≤ b - a := by omega
    simp [this]
  · rfl

theorem Memory.wf_wrBytes (bytes : List Byte) : ∀ {m : Memory}, m.wf → ∀ a, (m.wrBytes a bytes).wf := by
  induction bytes with
  | nil => intro m h _; exact h
  | cons v bytes ih => intro m h a; exact ih (Memory.wf_wr h a v) (a + 1)

theorem Memory.inside_wrBytes {cap : Nat} (bytes : List Byte) : ∀ {m : Memory}, m.inside cap → ∀ {a : Nat},
    a + bytes.length ≤ cap → (m.wrBytes a bytes).inside cap := by
  induction bytes with
  | nil => intro m h _ _; exact h
  | cons v bytes ih =>
    intro m h a ha
    have ha' : a + (bytes.length + 1) ≤ cap := by simpa using ha
    exact ih (Memory.inside_wr h (by omega) v) (by omega)

/-! ### 16- and 32-bit fields -/

@[simp] theorem length_bytes16 (v : U16) : (bytes16 v).length = 2 := rfl

@[simp] theorem length_bytes32 (v : U32) : (bytes32 v).length = 4 := rfl

@[simp] theorem length_mac_bytes (m : Mac) : m.bytes.length = 6 := rfl

@[simp] theorem length_ip4_bytes (p : Ip4) : p.bytes.length = 4 := rfl

theorem Memory.wr16_eq (m : Memory) (a : Nat) (v : U16) : m.wr16 a v = (m.wr a (hi v)).wr (a + 1) (lo v) := rfl

/-- A read after `Wr16` (R65). -/
theorem Memory.rd_wr16 (m : Memory) (a : Nat) (v : U16) (b : Nat) :
    (m.wr16 a v).rd b = if b = a then hi v else if b = a + 1 then lo v else m.rd b := by
  simp only [Memory.wr16_eq, Memory.rd_wr]
  by_cases h : b = a
  · subst h; simp
  · simp [h]

theorem Memory.wf_wr16 {m : Memory} (h : m.wf) (a : Nat) (v : U16) : (m.wr16 a v).wf := Memory.wf_wrBytes _ h a

theorem Memory.inside_wr16 {cap : Nat} {m : Memory} (h : m.inside cap) {a : Nat} (ha : a + 2 ≤ cap) (v : U16) :
    (m.wr16 a v).inside cap := Memory.inside_wrBytes _ h (by simpa using ha)

/-- A read after `Wr32` (R65). -/
theorem Memory.rd_wr32 (m : Memory) (a : Nat) (v : U32) (b : Nat) :
    (m.wr32 a v).rd b = if a ≤ b then ((bytes32 v)[b - a]?).getD (m.rd b) else m.rd b :=
  Memory.rd_wrBytes _ m a b

theorem Memory.wf_wr32 {m : Memory} (h : m.wf) (a : Nat) (v : U32) : (m.wr32 a v).wf := Memory.wf_wrBytes _ h a

theorem Memory.inside_wr32 {cap : Nat} {m : Memory} (h : m.inside cap) {a : Nat} (ha : a + 4 ≤ cap) (v : U32) :
    (m.wr32 a v).inside cap := Memory.inside_wrBytes _ h (by simpa using ha)

/-- Big-endian reading of a 16-bit field as a number (R64). -/
theorem be16_toNat (a b : Byte) : (be16 a b).toNat = a.toNat * 256 + b.toNat := by
  have hb : b.toNat < 2 ^ 8 := b.isLt
  have h : (be16 a b).toNat = a.toNat <<< 8 ||| b.toNat := BitVec.toNat_append a b
  rw [h, ← Nat.shiftLeft_add_eq_or_of_lt hb, Nat.shiftLeft_eq]

@[simp] theorem be16_hi_lo (v : U16) : be16 (hi v) (lo v) = v := by
  apply BitVec.eq_of_toNat_eq
  rw [be16_toNat]
  simp [hi, lo, Nat.shiftRight_eq_div_pow]
  have := v.isLt
  omega

@[simp] theorem hi_be16 (a b : Byte) : hi (be16 a b) = a := by
  apply BitVec.eq_of_toNat_eq
  have h := be16_toNat a b
  have ha := a.isLt
  have hb := b.isLt
  simp [hi, h, Nat.shiftRight_eq_div_pow]
  omega

@[simp] theorem lo_be16 (a b : Byte) : lo (be16 a b) = b := by
  apply BitVec.eq_of_toNat_eq
  have h := be16_toNat a b
  have hb := b.isLt
  simp [lo, h]
  omega

/-! ### The turn-round and paired writes -/

/-- What a turn-round leaves in every byte (R176, R178, R185): the destination field holds the old source field, the source
field this node's own bytes, the rest is as before. -/
theorem Memory.rd_turnRound (own : List Byte) : ∀ (m : Memory) (dst src b : Nat),
    dst + own.length ≤ src ∨ src + own.length ≤ dst →
    (m.turnRound dst src own).rd b =
      if dst ≤ b ∧ b < dst + own.length then m.rd (src + (b - dst))
      else if src ≤ b then (own[b - src]?).getD (m.rd b) else m.rd b := by
  induction own with
  | nil => intro m dst src b _; simp [Memory.turnRound]
  | cons v own ih =>
    intro m dst src b h
    simp only [List.length_cons] at h
    rw [Memory.turnRound, ih _ _ _ _ (by omega)]
    simp only [Memory.rd_wr, List.length_cons]
    by_cases h1 : dst + 1 ≤ b ∧ b < dst + 1 + own.length
    · have h2 : dst ≤ b ∧ b < dst + (own.length + 1) := by omega
      have h3 : src + 1 + (b - (dst + 1)) = src + (b - dst) := by omega
      have h4 : src + (b - dst) ≠ src := by omega
      have h5 : src + (b - dst) ≠ dst := by omega
      rw [if_pos h1, if_pos h2, h3, if_neg h4, if_neg h5]
    · rw [if_neg h1]
      by_cases h6 : b = dst
      · subst h6
        have h7 : ¬ b = src := by omega
        by_cases h8 : src + 1 ≤ b
        · have h9 : own.length ≤ b - (src + 1) := by omega
          simp [h7, h8, h9]
        · simp [h7, h8]
      · have h10 : ¬ (dst ≤ b ∧ b < dst + (own.length + 1)) := by omega
        rw [if_neg h10]
        by_cases h11 : b = src
        · subst h11; simp
        · by_cases h12 : src + 1 ≤ b
          · have h13 : b - src = (b - (src + 1)) + 1 := by omega
            have h14 : src ≤ b := by omega
            simp [h12, h13, h14, h11, h6]
          · have h15 : ¬ src ≤ b := by omega
            simp [h12, h15, h11, h6]

theorem Memory.wf_turnRound (own : List Byte) : ∀ {m : Memory}, m.wf → ∀ dst src, (m.turnRound dst src own).wf := by
  induction own with
  | nil => intro m h _ _; exact h
  | cons v own ih => intro m h dst src; exact ih (Memory.wf_wr (Memory.wf_wr h _ _) _ _) _ _

theorem Memory.inside_turnRound {cap : Nat} (own : List Byte) : ∀ {m : Memory}, m.inside cap → ∀ {dst src : Nat},
    dst + own.length ≤ cap → src + own.length ≤ cap → (m.turnRound dst src own).inside cap := by
  induction own with
  | nil => intro m h _ _ _ _; exact h
  | cons v own ih =>
    intro m h dst src hd hs
    simp only [List.length_cons] at hd hs
    exact ih (Memory.inside_wr (Memory.inside_wr h (by omega) _) (by omega) _) (by omega) (by omega)

theorem Memory.wf_wrPair (xs : List Byte) : ∀ (ys : List Byte) {m : Memory}, m.wf → ∀ a b, (m.wrPair a b xs ys).wf := by
  induction xs with
  | nil => intro ys m h _ _; exact h
  | cons x xs ih =>
    intro ys m h a b
    cases ys with
    | nil => exact h
    | cons y ys => exact ih ys (Memory.wf_wr (Memory.wf_wr h _ _) _ _) _ _

theorem Memory.inside_wrPair {cap : Nat} (xs : List Byte) : ∀ (ys : List Byte) {m : Memory}, m.inside cap → ∀ {a b : Nat},
    a + xs.length ≤ cap → b + xs.length ≤ cap → (m.wrPair a b xs ys).inside cap := by
  induction xs with
  | nil => intro ys m h _ _ _ _; exact h
  | cons x xs ih =>
    intro ys m h a b ha hb
    simp only [List.length_cons] at ha hb
    cases ys with
    | nil => exact h
    | cons y ys => exact ih ys (Memory.inside_wr (Memory.inside_wr h (by omega) _) (by omega) _) (by omega) (by omega)

/-- What two fields written side by side hold (R177): apart, each holds its own bytes. -/
theorem Memory.rd_wrPair (xs : List Byte) : ∀ (ys : List Byte) (m : Memory) (a b c : Nat),
    xs.length = ys.length → a + xs.length ≤ b ∨ b + xs.length ≤ a →
    (m.wrPair a b xs ys).rd c =
      if b ≤ c ∧ c < b + ys.length then (ys[c - b]?).getD 0#8
      else if a ≤ c then (xs[c - a]?).getD (m.rd c) else m.rd c := by
  induction xs with
  | nil =>
    intro ys m a b c h _
    have : ys = [] := List.length_eq_zero_iff.mp (by simpa using h.symm)
    subst this
    simp [Memory.wrPair]
  | cons x xs ih =>
    intro ys m a b c h hd
    cases ys with
    | nil => simp at h
    | cons y ys =>
      simp only [List.length_cons, Nat.add_right_cancel_iff] at h hd
      rw [Memory.wrPair, ih ys _ _ _ _ h (by omega)]
      simp only [Memory.rd_wr, List.length_cons]
      by_cases h1 : b + 1 ≤ c ∧ c < b + 1 + ys.length
      · have h2 : b ≤ c ∧ c < b + (ys.length + 1) := by omega
        have h3 : c - b = (c - (b + 1)) + 1 := by omega
        simp [h1, h2, h3]
      · rw [if_neg h1]
        by_cases h4 : c = b
        · subst h4
          by_cases h5 : a + 1 ≤ c
          · have h6 : xs.length ≤ c - (a + 1) := by omega
            simp [h5, h6]
          · simp [h5]
        · have h7 : ¬ (b ≤ c ∧ c < b + (ys.length + 1)) := by omega
          rw [if_neg h7]
          by_cases h8 : c = a
          · subst h8; simp [h4]
          · by_cases h9 : a + 1 ≤ c
            · have h10 : c - a = (c - (a + 1)) + 1 := by omega
              have h11 : a ≤ c := by omega
              simp [h9, h10, h11, h4, h8]
            · have h12 : ¬ a ≤ c := by omega
              simp [h9, h12, h4, h8]

/-! ### Ranges -/

@[simp] theorem Memory.length_slice (m : Memory) (a n : Nat) : (m.slice a n).length = n := by simp [Memory.slice]

theorem Memory.getElem_slice (m : Memory) (a n k : Nat) (h : k < (m.slice a n).length) : (m.slice a n)[k] = m.rd (a + k) := by
  simp [Memory.slice]

theorem Memory.getElem?_slice (m : Memory) (a n k : Nat) :
    (m.slice a n)[k]? = if k < n then some (m.rd (a + k)) else none := by
  by_cases h : k < n <;> simp [Memory.slice, h]

/-- Two buffers that agree on a range have the same slice of it. -/
theorem Memory.slice_congr {m m' : Memory} {a n : Nat} (h : ∀ b, a ≤ b → b < a + n → m.rd b = m'.rd b) :
    m.slice a n = m'.slice a n := by
  apply List.map_congr_left
  intro b hb
  rw [List.mem_range'_1] at hb
  exact h b hb.1 (by omega)

theorem Memory.slice_append (m : Memory) (a n k : Nat) : m.slice a (n + k) = m.slice a n ++ m.slice (a + n) k := by
  simp only [Memory.slice, ← List.map_append]
  rw [List.range'_append_1]

@[simp] theorem Memory.slice_zero (m : Memory) (a : Nat) : m.slice a 0 = [] := rfl

theorem Memory.slice_succ (m : Memory) (a n : Nat) : m.slice a (n + 1) = m.rd a :: m.slice (a + 1) n := by
  simp [Memory.slice, List.range'_succ]

/-! ### The steps of the transcoders -/

theorem Memory.rd_storeCksum (m : Memory) (cfg : Config) (kind : Kind) (off len field b : Nat) :
    (m.storeCksum cfg kind off len field).rd b =
      if b = field then hi (ckOf (m.sumOf cfg kind off len))
      else if b = field + 1 then lo (ckOf (m.sumOf cfg kind off len)) else m.rd b := Memory.rd_wr16 _ _ _ _

theorem Memory.wf_storeCksum {m : Memory} (h : m.wf) (cfg : Config) (kind : Kind) (off len field : Nat) :
    (m.storeCksum cfg kind off len field).wf := Memory.wf_wr16 h _ _

theorem Memory.inside_storeCksum {cap : Nat} {m : Memory} (h : m.inside cap) (cfg : Config) (kind : Kind) (off len : Nat)
    {field : Nat} (hf : field + 2 ≤ cap) : (m.storeCksum cfg kind off len field).inside cap := Memory.inside_wr16 h hf _

/-- `EthReply` byte by byte (R176). -/
theorem rd_ethReply (mac : Mac) (m : Memory) (b : Nat) :
    (ethReply mac m).rd b =
      if b < 6 then m.rd (6 + b) else if b < 12 then (mac.bytes[b - 6]?).getD 0#8 else m.rd b := by
  rw [ethReply, Memory.rd_turnRound _ _ _ _ _ (by simp)]
  simp only [ETH_DST, ETH_SRC, length_mac_bytes]
  by_cases h1 : b < 6
  · simp [h1]
  · by_cases h2 : b < 12
    · have h3 : b - 6 < mac.bytes.length := by simp; omega
      have h4 : 6 ≤ b := by omega
      rw [List.getElem?_eq_getElem h3]
      simp [h1, h2, h4]
    · have h5 : mac.bytes[b - 6]? = none := List.getElem?_eq_none (by simp; omega)
      simp [h1, h2, h5]

/-- `EthNew` byte by byte (R177). -/
theorem rd_ethNew (mac dmac : Mac) (m : Memory) (b : Nat) :
    (ethNew mac dmac m).rd b =
      if b < 6 then (dmac.bytes[b]?).getD 0#8 else if b < 12 then (mac.bytes[b - 6]?).getD 0#8 else m.rd b := by
  rw [ethNew, Memory.rd_wrPair _ _ _ _ _ _ (by simp) (by simp)]
  simp only [ETH_DST, ETH_SRC, length_mac_bytes]
  by_cases h1 : b < 6
  · have h3 : b < dmac.bytes.length := by simpa using h1
    have h4 : ¬ 6 ≤ b := by omega
    rw [Nat.sub_zero, List.getElem?_eq_getElem h3]
    simp [h1, h4]
  · have h2 : 6 ≤ b := by omega
    simp [h1, h2]

/-- The address turn-round of `IpReply` byte by byte (R178). -/
theorem rd_ipTurn (ip : Ip4) (m : Memory) (b : Nat) :
    (ipTurn ip m).rd b =
      if 30 ≤ b ∧ b < 34 then m.rd (26 + (b - 30))
      else if 26 ≤ b ∧ b < 30 then (ip.bytes[b - 26]?).getD 0#8 else m.rd b := by
  rw [ipTurn, Memory.rd_turnRound _ _ _ _ _ (by simp)]
  simp only [IP_DST, IP_SRC, length_ip4_bytes]
  by_cases h1 : 30 ≤ b ∧ b < 34
  · simp [h1]
  · rw [if_neg h1, if_neg h1]
    by_cases h2 : 26 ≤ b ∧ b < 30
    · have h3 : b - 26 < ip.bytes.length := by simp; omega
      rw [List.getElem?_eq_getElem h3]
      simp [h2]
    · by_cases h4 : 26 ≤ b
      · have h5 : ip.bytes[b - 26]? = none := List.getElem?_eq_none (by simp; omega)
        simp [h2, h5]
      · simp [h4]

/-- `IpFinish` before its checksum, byte by byte (R179). -/
theorem rd_ipZeroed (cfg : Config) (m : Memory) (b : Nat) :
    (ipZeroed cfg m).rd b =
      if b = 24 ∨ b = 25 then 0#8
      else if cfg.ipNormalise then (if b = 20 then 0x40#8 else if b = 21 then 0#8 else if b = 22 then 64#8 else m.rd b)
      else m.rd b := by
  cases h : cfg.ipNormalise
  · by_cases h1 : b = 24 <;> by_cases h2 : b = 25 <;> simp [ipZeroed, h, Memory.rd_wr, h1, h2]
  · by_cases h1 : b = 24
    · simp [ipZeroed, h, Memory.rd_wr, h1]
    · by_cases h2 : b = 25
      · simp [ipZeroed, h, h2]
      · by_cases h3 : b = 20
        · simp [ipZeroed, h, Memory.rd_wr, h3]
        · by_cases h4 : b = 21
          · simp [ipZeroed, h, Memory.rd_wr, h4]
          · simp [ipZeroed, h, Memory.rd_wr, h1, h2, h3, h4]

theorem wf_ipZeroed {m : Memory} (h : m.wf) (cfg : Config) : (ipZeroed cfg m).wf := by
  unfold ipZeroed
  split
  · exact Memory.wf_wr (Memory.wf_wr (Memory.wf_wr (Memory.wf_wr (Memory.wf_wr h _ _) _ _) _ _) _ _) _ _
  · exact Memory.wf_wr (Memory.wf_wr h _ _) _ _

theorem inside_ipZeroed {cap : Nat} {m : Memory} (hc : 58 ≤ cap) (h : m.inside cap) (cfg : Config) :
    (ipZeroed cfg m).inside cap := by
  simp only [ipZeroed]
  split
  · exact Memory.inside_wr (Memory.inside_wr (Memory.inside_wr (Memory.inside_wr (Memory.inside_wr h (by simp; omega) _)
      (by simp; omega) _) (by simp; omega) _) (by simp; omega) _) (by simp; omega) _
  · exact Memory.inside_wr (Memory.inside_wr h (by simp; omega) _) (by simp; omega) _

theorem wf_ipFinish {m : Memory} (h : m.wf) (cfg : Config) : (ipFinish cfg m).wf :=
  Memory.wf_storeCksum (wf_ipZeroed h cfg) _ _ _ _ _

theorem inside_ipFinish {cap : Nat} {m : Memory} (hc : 58 ≤ cap) (h : m.inside cap) (cfg : Config) :
    (ipFinish cfg m).inside cap := Memory.inside_storeCksum (inside_ipZeroed hc h cfg) _ _ _ _ (by simp; omega)

theorem wf_ipReply {m : Memory} (h : m.wf) (cfg : Config) (ip : Ip4) : (ipReply cfg ip m).wf :=
  wf_ipFinish (Memory.wf_turnRound _ h _ _) cfg

theorem inside_ipReply {cap : Nat} {m : Memory} (hc : 58 ≤ cap) (h : m.inside cap) (cfg : Config) (ip : Ip4) :
    (ipReply cfg ip m).inside cap :=
  inside_ipFinish hc (Memory.inside_turnRound _ h (by simp; omega) (by simp; omega)) cfg

theorem wf_ethReply {m : Memory} (h : m.wf) (mac : Mac) : (ethReply mac m).wf := Memory.wf_turnRound _ h _ _

theorem inside_ethReply {cap : Nat} {m : Memory} (hc : 58 ≤ cap) (h : m.inside cap) (mac : Mac) :
    (ethReply mac m).inside cap := Memory.inside_turnRound _ h (by simp; omega) (by simp; omega)

theorem wf_ethNew {m : Memory} (h : m.wf) (mac dmac : Mac) : (ethNew mac dmac m).wf := Memory.wf_wrPair _ _ h _ _

theorem inside_ethNew {cap : Nat} {m : Memory} (hc : 58 ≤ cap) (h : m.inside cap) (mac dmac : Mac) :
    (ethNew mac dmac m).inside cap := Memory.inside_wrPair _ _ h (by simp; omega) (by simp; omega)

/-- The port turn-round byte by byte (R200, R210). -/
theorem rd_portsTurn (m : Memory) (b : Nat) :
    (portsTurn m).rd b = if b = 36 then m.rd 34 else if b = 37 then m.rd 35 else m.rd b := by
  by_cases h1 : b = 36
  · simp [portsTurn, Memory.rd_wr, h1]
  · by_cases h2 : b = 37
    · simp [portsTurn, Memory.rd_wr, h2]
    · simp [portsTurn, Memory.rd_wr, h1, h2]

theorem wf_portsTurn {m : Memory} (h : m.wf) : (portsTurn m).wf := Memory.wf_wr (Memory.wf_wr h _ _) _ _

theorem inside_portsTurn {cap : Nat} {m : Memory} (hc : 58 ≤ cap) (h : m.inside cap) : (portsTurn m).inside cap :=
  Memory.inside_wr (Memory.inside_wr h (by simp; omega) _) (by simp; omega) _

theorem wf_tcpOption {m : Memory} (h : m.wf) (cfg : Config) (mss : Bool) : (tcpOption cfg mss m).wf := by
  unfold tcpOption
  split
  · exact Memory.wf_wr (Memory.wf_wrBytes _ h _) _ _
  · exact Memory.wf_wr h _ _

theorem inside_tcpOption {cap : Nat} {m : Memory} (hc : 58 ≤ cap) (h : m.inside cap) (cfg : Config) (mss : Bool) :
    (tcpOption cfg mss m).inside cap := by
  unfold tcpOption
  split
  · exact Memory.inside_wr (Memory.inside_wrBytes _ h (by simp [mssOption]; omega)) (by simp; omega) _
  · exact Memory.inside_wr h (by simp; omega) _

theorem wf_tcpHead {m : Memory} (h : m.wf) (cfg : Config) (port seq : Byte) (adv : U16) (mss newseq : Bool) :
    (tcpHead cfg port seq adv mss newseq m).wf :=
  wf_tcpOption (Memory.wf_wr (Memory.wf_wr (Memory.wf_wr32 (Memory.wf_wr32 (Memory.wf_wr (Memory.wf_wr (wf_portsTurn h)
    _ _) _ _) _ _) _ _) _ _) _ _) _ _

theorem inside_tcpHead {cap : Nat} {m : Memory} (hc : 58 ≤ cap) (h : m.inside cap) (cfg : Config) (port seq : Byte)
    (adv : U16) (mss newseq : Bool) : (tcpHead cfg port seq adv mss newseq m).inside cap :=
  inside_tcpOption hc (Memory.inside_wr (Memory.inside_wr (Memory.inside_wr32 (Memory.inside_wr32 (Memory.inside_wr
    (Memory.inside_wr (inside_portsTurn hc h) (by simp; omega) _) (by simp; omega) _) (by simp; omega) _)
    (by simp; omega) _) (by simp; omega) _) (by simp; omega) _) _ _

end Sys2Proof.Machine
end

