-- ==== Sys2Proof/Laws/State.lean ====
section
/-! SUPPORT. Each field of State after each named update of it, true by `rfl`; `raise` by its one case split. -/

namespace Sys2Proof.Machine

/-! ### State.setInited -/

@[simp] theorem State.setInited_cfg (s : State) : (s.setInited).cfg = s.cfg := rfl
@[simp] theorem State.setInited_buf (s : State) : (s.setInited).buf = s.buf := rfl
@[simp] theorem State.setInited_mac (s : State) : (s.setInited).mac = s.mac := rfl
@[simp] theorem State.setInited_ip (s : State) : (s.setInited).ip = s.ip := rfl
@[simp] theorem State.setInited_port (s : State) : (s.setInited).port = s.port := rfl
@[simp] theorem State.setInited_ipid (s : State) : (s.setInited).ipid = s.ipid := rfl
@[simp] theorem State.setInited_seq (s : State) : (s.setInited).seq = s.seq := rfl
@[simp] theorem State.setInited_hlen (s : State) : (s.setInited).hlen = s.hlen := rfl
@[simp] theorem State.setInited_dlen (s : State) : (s.setInited).dlen = s.dlen := rfl
@[simp] theorem State.setInited_sum (s : State) : (s.setInited).sum = s.sum := rfl
@[simp] theorem State.setInited_inited (s : State) : (s.setInited).inited = true := rfl
@[simp] theorem State.setInited_sesv (s : State) : (s.setInited).sesv = s.sesv := rfl
@[simp] theorem State.setInited_rxlen (s : State) : (s.setInited).rxlen = s.rxlen := rfl
@[simp] theorem State.setInited_res (s : State) : (s.setInited).res = s.res := rfl
@[simp] theorem State.setInited_fault (s : State) : (s.setInited).fault = s.fault := rfl
@[simp] theorem State.setInited_txlog (s : State) : (s.setInited).txlog = s.txlog := rfl
@[simp] theorem State.setInited_rx (s : State) : (s.setInited).rx = s.rx := rfl
@[simp] theorem State.setInited_cmds (s : State) : (s.setInited).cmds = s.cmds := rfl
@[simp] theorem State.setInited_resps (s : State) : (s.setInited).resps = s.resps := rfl
@[simp] theorem State.setInited_handler (s : State) : (s.setInited).handler = s.handler := rfl
@[simp] theorem State.setInited_reqlog (s : State) : (s.setInited).reqlog = s.reqlog := rfl

/-! ### State.setSesv -/

@[simp] theorem State.setSesv_cfg (s : State) : (s.setSesv).cfg = s.cfg := rfl
@[simp] theorem State.setSesv_buf (s : State) : (s.setSesv).buf = s.buf := rfl
@[simp] theorem State.setSesv_mac (s : State) : (s.setSesv).mac = s.mac := rfl
@[simp] theorem State.setSesv_ip (s : State) : (s.setSesv).ip = s.ip := rfl
@[simp] theorem State.setSesv_port (s : State) : (s.setSesv).port = s.port := rfl
@[simp] theorem State.setSesv_ipid (s : State) : (s.setSesv).ipid = s.ipid := rfl
@[simp] theorem State.setSesv_seq (s : State) : (s.setSesv).seq = s.seq := rfl
@[simp] theorem State.setSesv_hlen (s : State) : (s.setSesv).hlen = s.hlen := rfl
@[simp] theorem State.setSesv_dlen (s : State) : (s.setSesv).dlen = s.dlen := rfl
@[simp] theorem State.setSesv_sum (s : State) : (s.setSesv).sum = s.sum := rfl
@[simp] theorem State.setSesv_inited (s : State) : (s.setSesv).inited = s.inited := rfl
@[simp] theorem State.setSesv_sesv (s : State) : (s.setSesv).sesv = true := rfl
@[simp] theorem State.setSesv_rxlen (s : State) : (s.setSesv).rxlen = s.rxlen := rfl
@[simp] theorem State.setSesv_res (s : State) : (s.setSesv).res = s.res := rfl
@[simp] theorem State.setSesv_fault (s : State) : (s.setSesv).fault = s.fault := rfl
@[simp] theorem State.setSesv_txlog (s : State) : (s.setSesv).txlog = s.txlog := rfl
@[simp] theorem State.setSesv_rx (s : State) : (s.setSesv).rx = s.rx := rfl
@[simp] theorem State.setSesv_cmds (s : State) : (s.setSesv).cmds = s.cmds := rfl
@[simp] theorem State.setSesv_resps (s : State) : (s.setSesv).resps = s.resps := rfl
@[simp] theorem State.setSesv_handler (s : State) : (s.setSesv).handler = s.handler := rfl
@[simp] theorem State.setSesv_reqlog (s : State) : (s.setSesv).reqlog = s.reqlog := rfl

/-! ### State.clearSesv -/

@[simp] theorem State.clearSesv_cfg (s : State) : (s.clearSesv).cfg = s.cfg := rfl
@[simp] theorem State.clearSesv_buf (s : State) : (s.clearSesv).buf = s.buf := rfl
@[simp] theorem State.clearSesv_mac (s : State) : (s.clearSesv).mac = s.mac := rfl
@[simp] theorem State.clearSesv_ip (s : State) : (s.clearSesv).ip = s.ip := rfl
@[simp] theorem State.clearSesv_port (s : State) : (s.clearSesv).port = s.port := rfl
@[simp] theorem State.clearSesv_ipid (s : State) : (s.clearSesv).ipid = s.ipid := rfl
@[simp] theorem State.clearSesv_seq (s : State) : (s.clearSesv).seq = s.seq := rfl
@[simp] theorem State.clearSesv_hlen (s : State) : (s.clearSesv).hlen = s.hlen := rfl
@[simp] theorem State.clearSesv_dlen (s : State) : (s.clearSesv).dlen = s.dlen := rfl
@[simp] theorem State.clearSesv_sum (s : State) : (s.clearSesv).sum = s.sum := rfl
@[simp] theorem State.clearSesv_inited (s : State) : (s.clearSesv).inited = s.inited := rfl
@[simp] theorem State.clearSesv_sesv (s : State) : (s.clearSesv).sesv = false := rfl
@[simp] theorem State.clearSesv_rxlen (s : State) : (s.clearSesv).rxlen = s.rxlen := rfl
@[simp] theorem State.clearSesv_res (s : State) : (s.clearSesv).res = s.res := rfl
@[simp] theorem State.clearSesv_fault (s : State) : (s.clearSesv).fault = s.fault := rfl
@[simp] theorem State.clearSesv_txlog (s : State) : (s.clearSesv).txlog = s.txlog := rfl
@[simp] theorem State.clearSesv_rx (s : State) : (s.clearSesv).rx = s.rx := rfl
@[simp] theorem State.clearSesv_cmds (s : State) : (s.clearSesv).cmds = s.cmds := rfl
@[simp] theorem State.clearSesv_resps (s : State) : (s.clearSesv).resps = s.resps := rfl
@[simp] theorem State.clearSesv_handler (s : State) : (s.clearSesv).handler = s.handler := rfl
@[simp] theorem State.clearSesv_reqlog (s : State) : (s.clearSesv).reqlog = s.reqlog := rfl

/-! ### State.send -/

@[simp] theorem State.send_cfg (s : State) (n : Nat) : (s.send n).cfg = s.cfg := rfl
@[simp] theorem State.send_buf (s : State) (n : Nat) : (s.send n).buf = s.buf := rfl
@[simp] theorem State.send_mac (s : State) (n : Nat) : (s.send n).mac = s.mac := rfl
@[simp] theorem State.send_ip (s : State) (n : Nat) : (s.send n).ip = s.ip := rfl
@[simp] theorem State.send_port (s : State) (n : Nat) : (s.send n).port = s.port := rfl
@[simp] theorem State.send_ipid (s : State) (n : Nat) : (s.send n).ipid = s.ipid := rfl
@[simp] theorem State.send_seq (s : State) (n : Nat) : (s.send n).seq = s.seq := rfl
@[simp] theorem State.send_hlen (s : State) (n : Nat) : (s.send n).hlen = s.hlen := rfl
@[simp] theorem State.send_dlen (s : State) (n : Nat) : (s.send n).dlen = s.dlen := rfl
@[simp] theorem State.send_sum (s : State) (n : Nat) : (s.send n).sum = s.sum := rfl
@[simp] theorem State.send_inited (s : State) (n : Nat) : (s.send n).inited = s.inited := rfl
@[simp] theorem State.send_sesv (s : State) (n : Nat) : (s.send n).sesv = s.sesv := rfl
@[simp] theorem State.send_rxlen (s : State) (n : Nat) : (s.send n).rxlen = s.rxlen := rfl
@[simp] theorem State.send_res (s : State) (n : Nat) : (s.send n).res = s.res := rfl
@[simp] theorem State.send_fault (s : State) (n : Nat) : (s.send n).fault = s.fault := rfl
@[simp] theorem State.send_txlog (s : State) (n : Nat) : (s.send n).txlog = s.txlog ++ [s.buf.slice 0 n] := rfl
@[simp] theorem State.send_rx (s : State) (n : Nat) : (s.send n).rx = s.rx := rfl
@[simp] theorem State.send_cmds (s : State) (n : Nat) : (s.send n).cmds = s.cmds := rfl
@[simp] theorem State.send_resps (s : State) (n : Nat) : (s.send n).resps = s.resps := rfl
@[simp] theorem State.send_handler (s : State) (n : Nat) : (s.send n).handler = s.handler := rfl
@[simp] theorem State.send_reqlog (s : State) (n : Nat) : (s.send n).reqlog = s.reqlog := rfl

/-! ### State.linkReceive -/

@[simp] theorem State.linkReceive_cfg (s : State) : (s.linkReceive).cfg = s.cfg := rfl
@[simp] theorem State.linkReceive_buf (s : State) : (s.linkReceive).buf = s.buf.wrBytes 0 s.arriving := rfl
@[simp] theorem State.linkReceive_mac (s : State) : (s.linkReceive).mac = s.mac := rfl
@[simp] theorem State.linkReceive_ip (s : State) : (s.linkReceive).ip = s.ip := rfl
@[simp] theorem State.linkReceive_port (s : State) : (s.linkReceive).port = s.port := rfl
@[simp] theorem State.linkReceive_ipid (s : State) : (s.linkReceive).ipid = s.ipid := rfl
@[simp] theorem State.linkReceive_seq (s : State) : (s.linkReceive).seq = s.seq := rfl
@[simp] theorem State.linkReceive_hlen (s : State) : (s.linkReceive).hlen = s.hlen := rfl
@[simp] theorem State.linkReceive_dlen (s : State) : (s.linkReceive).dlen = s.dlen := rfl
@[simp] theorem State.linkReceive_sum (s : State) : (s.linkReceive).sum = s.sum := rfl
@[simp] theorem State.linkReceive_inited (s : State) : (s.linkReceive).inited = s.inited := rfl
@[simp] theorem State.linkReceive_sesv (s : State) : (s.linkReceive).sesv = false := rfl
@[simp] theorem State.linkReceive_rxlen (s : State) : (s.linkReceive).rxlen = u16 s.arriving.length := rfl
@[simp] theorem State.linkReceive_res (s : State) : (s.linkReceive).res = s.res := rfl
@[simp] theorem State.linkReceive_fault (s : State) : (s.linkReceive).fault = s.fault := rfl
@[simp] theorem State.linkReceive_txlog (s : State) : (s.linkReceive).txlog = s.txlog := rfl
@[simp] theorem State.linkReceive_rx (s : State) : (s.linkReceive).rx = s.rx.tail := rfl
@[simp] theorem State.linkReceive_cmds (s : State) : (s.linkReceive).cmds = s.cmds := rfl
@[simp] theorem State.linkReceive_resps (s : State) : (s.linkReceive).resps = s.resps := rfl
@[simp] theorem State.linkReceive_handler (s : State) : (s.linkReceive).handler = s.handler := rfl
@[simp] theorem State.linkReceive_reqlog (s : State) : (s.linkReceive).reqlog = s.reqlog := rfl

/-! ### State.logRequest -/

@[simp] theorem State.logRequest_cfg (s : State) (req : List Byte) : (s.logRequest req).cfg = s.cfg := rfl
@[simp] theorem State.logRequest_buf (s : State) (req : List Byte) : (s.logRequest req).buf = s.buf := rfl
@[simp] theorem State.logRequest_mac (s : State) (req : List Byte) : (s.logRequest req).mac = s.mac := rfl
@[simp] theorem State.logRequest_ip (s : State) (req : List Byte) : (s.logRequest req).ip = s.ip := rfl
@[simp] theorem State.logRequest_port (s : State) (req : List Byte) : (s.logRequest req).port = s.port := rfl
@[simp] theorem State.logRequest_ipid (s : State) (req : List Byte) : (s.logRequest req).ipid = s.ipid := rfl
@[simp] theorem State.logRequest_seq (s : State) (req : List Byte) : (s.logRequest req).seq = s.seq := rfl
@[simp] theorem State.logRequest_hlen (s : State) (req : List Byte) : (s.logRequest req).hlen = s.hlen := rfl
@[simp] theorem State.logRequest_dlen (s : State) (req : List Byte) : (s.logRequest req).dlen = s.dlen := rfl
@[simp] theorem State.logRequest_sum (s : State) (req : List Byte) : (s.logRequest req).sum = s.sum := rfl
@[simp] theorem State.logRequest_inited (s : State) (req : List Byte) : (s.logRequest req).inited = s.inited := rfl
@[simp] theorem State.logRequest_sesv (s : State) (req : List Byte) : (s.logRequest req).sesv = s.sesv := rfl
@[simp] theorem State.logRequest_rxlen (s : State) (req : List Byte) : (s.logRequest req).rxlen = s.rxlen := rfl
@[simp] theorem State.logRequest_res (s : State) (req : List Byte) : (s.logRequest req).res = s.res := rfl
@[simp] theorem State.logRequest_fault (s : State) (req : List Byte) : (s.logRequest req).fault = s.fault := rfl
@[simp] theorem State.logRequest_txlog (s : State) (req : List Byte) : (s.logRequest req).txlog = s.txlog := rfl
@[simp] theorem State.logRequest_rx (s : State) (req : List Byte) : (s.logRequest req).rx = s.rx := rfl
@[simp] theorem State.logRequest_cmds (s : State) (req : List Byte) : (s.logRequest req).cmds = s.cmds := rfl
@[simp] theorem State.logRequest_resps (s : State) (req : List Byte) : (s.logRequest req).resps = s.resps := rfl
@[simp] theorem State.logRequest_handler (s : State) (req : List Byte) : (s.logRequest req).handler = s.handler := rfl
@[simp] theorem State.logRequest_reqlog (s : State) (req : List Byte) : (s.logRequest req).reqlog = s.reqlog ++ [req] := rfl

/-! ### State.tcpSend -/

@[simp] theorem State.tcpSend_cfg (s : State) (z : Memory) (len n : Nat) : (s.tcpSend z len n).cfg = s.cfg := rfl
@[simp] theorem State.tcpSend_buf (s : State) (z : Memory) (len n : Nat) : (s.tcpSend z len n).buf = z.storeCksum s.cfg .tcp IP_SRC len TCP_CSUM := rfl
@[simp] theorem State.tcpSend_mac (s : State) (z : Memory) (len n : Nat) : (s.tcpSend z len n).mac = s.mac := rfl
@[simp] theorem State.tcpSend_ip (s : State) (z : Memory) (len n : Nat) : (s.tcpSend z len n).ip = s.ip := rfl
@[simp] theorem State.tcpSend_port (s : State) (z : Memory) (len n : Nat) : (s.tcpSend z len n).port = s.port := rfl
@[simp] theorem State.tcpSend_ipid (s : State) (z : Memory) (len n : Nat) : (s.tcpSend z len n).ipid = s.ipid := rfl
@[simp] theorem State.tcpSend_seq (s : State) (z : Memory) (len n : Nat) : (s.tcpSend z len n).seq = s.seq := rfl
@[simp] theorem State.tcpSend_hlen (s : State) (z : Memory) (len n : Nat) : (s.tcpSend z len n).hlen = s.hlen := rfl
@[simp] theorem State.tcpSend_dlen (s : State) (z : Memory) (len n : Nat) : (s.tcpSend z len n).dlen = s.dlen := rfl
@[simp] theorem State.tcpSend_sum (s : State) (z : Memory) (len n : Nat) : (s.tcpSend z len n).sum = z.sumOf s.cfg .tcp IP_SRC len := rfl
@[simp] theorem State.tcpSend_inited (s : State) (z : Memory) (len n : Nat) : (s.tcpSend z len n).inited = s.inited := rfl
@[simp] theorem State.tcpSend_sesv (s : State) (z : Memory) (len n : Nat) : (s.tcpSend z len n).sesv = s.sesv := rfl
@[simp] theorem State.tcpSend_rxlen (s : State) (z : Memory) (len n : Nat) : (s.tcpSend z len n).rxlen = s.rxlen := rfl
@[simp] theorem State.tcpSend_res (s : State) (z : Memory) (len n : Nat) : (s.tcpSend z len n).res = s.res := rfl
@[simp] theorem State.tcpSend_fault (s : State) (z : Memory) (len n : Nat) : (s.tcpSend z len n).fault = s.fault := rfl
@[simp] theorem State.tcpSend_txlog (s : State) (z : Memory) (len n : Nat) : (s.tcpSend z len n).txlog = s.txlog ++ [(z.storeCksum s.cfg .tcp IP_SRC len TCP_CSUM).slice 0 n] := rfl
@[simp] theorem State.tcpSend_rx (s : State) (z : Memory) (len n : Nat) : (s.tcpSend z len n).rx = s.rx := rfl
@[simp] theorem State.tcpSend_cmds (s : State) (z : Memory) (len n : Nat) : (s.tcpSend z len n).cmds = s.cmds := rfl
@[simp] theorem State.tcpSend_resps (s : State) (z : Memory) (len n : Nat) : (s.tcpSend z len n).resps = s.resps := rfl
@[simp] theorem State.tcpSend_handler (s : State) (z : Memory) (len n : Nat) : (s.tcpSend z len n).handler = s.handler := rfl
@[simp] theorem State.tcpSend_reqlog (s : State) (z : Memory) (len n : Nat) : (s.tcpSend z len n).reqlog = s.reqlog := rfl

/-! ### State.respond -/

@[simp] theorem State.respond_cfg (s : State) : (s.respond).cfg = s.cfg := rfl
@[simp] theorem State.respond_buf (s : State) : (s.respond).buf = s.buf := rfl
@[simp] theorem State.respond_mac (s : State) : (s.respond).mac = s.mac := rfl
@[simp] theorem State.respond_ip (s : State) : (s.respond).ip = s.ip := rfl
@[simp] theorem State.respond_port (s : State) : (s.respond).port = s.port := rfl
@[simp] theorem State.respond_ipid (s : State) : (s.respond).ipid = s.ipid := rfl
@[simp] theorem State.respond_seq (s : State) : (s.respond).seq = s.seq := rfl
@[simp] theorem State.respond_hlen (s : State) : (s.respond).hlen = s.hlen := rfl
@[simp] theorem State.respond_dlen (s : State) : (s.respond).dlen = s.dlen := rfl
@[simp] theorem State.respond_sum (s : State) : (s.respond).sum = s.sum := rfl
@[simp] theorem State.respond_inited (s : State) : (s.respond).inited = s.inited := rfl
@[simp] theorem State.respond_sesv (s : State) : (s.respond).sesv = s.sesv := rfl
@[simp] theorem State.respond_rxlen (s : State) : (s.respond).rxlen = s.rxlen := rfl
@[simp] theorem State.respond_res (s : State) : (s.respond).res = s.res := rfl
@[simp] theorem State.respond_fault (s : State) : (s.respond).fault = s.fault := rfl
@[simp] theorem State.respond_txlog (s : State) : (s.respond).txlog = s.txlog := rfl
@[simp] theorem State.respond_rx (s : State) : (s.respond).rx = s.rx := rfl
@[simp] theorem State.respond_cmds (s : State) : (s.respond).cmds = s.cmds := rfl
@[simp] theorem State.respond_resps (s : State) : (s.respond).resps = s.resps ++ [s.fault :: bytes16 s.res] := rfl
@[simp] theorem State.respond_handler (s : State) : (s.respond).handler = s.handler := rfl
@[simp] theorem State.respond_reqlog (s : State) : (s.respond).reqlog = s.reqlog := rfl

/-! ### State.withCommands -/

@[simp] theorem State.withCommands_cfg (s : State) (rest : List (List Byte)) : (s.withCommands rest).cfg = s.cfg := rfl
@[simp] theorem State.withCommands_buf (s : State) (rest : List (List Byte)) : (s.withCommands rest).buf = s.buf := rfl
@[simp] theorem State.withCommands_mac (s : State) (rest : List (List Byte)) : (s.withCommands rest).mac = s.mac := rfl
@[simp] theorem State.withCommands_ip (s : State) (rest : List (List Byte)) : (s.withCommands rest).ip = s.ip := rfl
@[simp] theorem State.withCommands_port (s : State) (rest : List (List Byte)) : (s.withCommands rest).port = s.port := rfl
@[simp] theorem State.withCommands_ipid (s : State) (rest : List (List Byte)) : (s.withCommands rest).ipid = s.ipid := rfl
@[simp] theorem State.withCommands_seq (s : State) (rest : List (List Byte)) : (s.withCommands rest).seq = s.seq := rfl
@[simp] theorem State.withCommands_hlen (s : State) (rest : List (List Byte)) : (s.withCommands rest).hlen = s.hlen := rfl
@[simp] theorem State.withCommands_dlen (s : State) (rest : List (List Byte)) : (s.withCommands rest).dlen = s.dlen := rfl
@[simp] theorem State.withCommands_sum (s : State) (rest : List (List Byte)) : (s.withCommands rest).sum = s.sum := rfl
@[simp] theorem State.withCommands_inited (s : State) (rest : List (List Byte)) : (s.withCommands rest).inited = s.inited := rfl
@[simp] theorem State.withCommands_sesv (s : State) (rest : List (List Byte)) : (s.withCommands rest).sesv = s.sesv := rfl
@[simp] theorem State.withCommands_rxlen (s : State) (rest : List (List Byte)) : (s.withCommands rest).rxlen = s.rxlen := rfl
@[simp] theorem State.withCommands_res (s : State) (rest : List (List Byte)) : (s.withCommands rest).res = s.res := rfl
@[simp] theorem State.withCommands_fault (s : State) (rest : List (List Byte)) : (s.withCommands rest).fault = s.fault := rfl
@[simp] theorem State.withCommands_txlog (s : State) (rest : List (List Byte)) : (s.withCommands rest).txlog = s.txlog := rfl
@[simp] theorem State.withCommands_rx (s : State) (rest : List (List Byte)) : (s.withCommands rest).rx = s.rx := rfl
@[simp] theorem State.withCommands_cmds (s : State) (rest : List (List Byte)) : (s.withCommands rest).cmds = rest := rfl
@[simp] theorem State.withCommands_resps (s : State) (rest : List (List Byte)) : (s.withCommands rest).resps = s.resps := rfl
@[simp] theorem State.withCommands_handler (s : State) (rest : List (List Byte)) : (s.withCommands rest).handler = s.handler := rfl
@[simp] theorem State.withCommands_reqlog (s : State) (rest : List (List Byte)) : (s.withCommands rest).reqlog = s.reqlog := rfl

/-! ### State.present -/

@[simp] theorem State.present_cfg (s : State) (c : List Byte) : (s.present c).cfg = s.cfg := rfl
@[simp] theorem State.present_buf (s : State) (c : List Byte) : (s.present c).buf = s.buf := rfl
@[simp] theorem State.present_mac (s : State) (c : List Byte) : (s.present c).mac = s.mac := rfl
@[simp] theorem State.present_ip (s : State) (c : List Byte) : (s.present c).ip = s.ip := rfl
@[simp] theorem State.present_port (s : State) (c : List Byte) : (s.present c).port = s.port := rfl
@[simp] theorem State.present_ipid (s : State) (c : List Byte) : (s.present c).ipid = s.ipid := rfl
@[simp] theorem State.present_seq (s : State) (c : List Byte) : (s.present c).seq = s.seq := rfl
@[simp] theorem State.present_hlen (s : State) (c : List Byte) : (s.present c).hlen = s.hlen := rfl
@[simp] theorem State.present_dlen (s : State) (c : List Byte) : (s.present c).dlen = s.dlen := rfl
@[simp] theorem State.present_sum (s : State) (c : List Byte) : (s.present c).sum = s.sum := rfl
@[simp] theorem State.present_inited (s : State) (c : List Byte) : (s.present c).inited = s.inited := rfl
@[simp] theorem State.present_sesv (s : State) (c : List Byte) : (s.present c).sesv = s.sesv := rfl
@[simp] theorem State.present_rxlen (s : State) (c : List Byte) : (s.present c).rxlen = s.rxlen := rfl
@[simp] theorem State.present_res (s : State) (c : List Byte) : (s.present c).res = s.res := rfl
@[simp] theorem State.present_fault (s : State) (c : List Byte) : (s.present c).fault = s.fault := rfl
@[simp] theorem State.present_txlog (s : State) (c : List Byte) : (s.present c).txlog = s.txlog := rfl
@[simp] theorem State.present_rx (s : State) (c : List Byte) : (s.present c).rx = s.rx := rfl
@[simp] theorem State.present_cmds (s : State) (c : List Byte) : (s.present c).cmds = c :: s.cmds := rfl
@[simp] theorem State.present_resps (s : State) (c : List Byte) : (s.present c).resps = s.resps := rfl
@[simp] theorem State.present_handler (s : State) (c : List Byte) : (s.present c).handler = s.handler := rfl
@[simp] theorem State.present_reqlog (s : State) (c : List Byte) : (s.present c).reqlog = s.reqlog := rfl

/-! ### raise (R292) -/

@[simp] theorem raise_fault (f : Fault) (s : State) : (raise f s).fault = if s.fault = 0#8 then f.code else s.fault := by
  unfold raise
  split <;> rfl

@[simp] theorem raise_cfg (f : Fault) (s : State) : (raise f s).cfg = s.cfg := by unfold raise; split <;> rfl
@[simp] theorem raise_buf (f : Fault) (s : State) : (raise f s).buf = s.buf := by unfold raise; split <;> rfl
@[simp] theorem raise_mac (f : Fault) (s : State) : (raise f s).mac = s.mac := by unfold raise; split <;> rfl
@[simp] theorem raise_ip (f : Fault) (s : State) : (raise f s).ip = s.ip := by unfold raise; split <;> rfl
@[simp] theorem raise_port (f : Fault) (s : State) : (raise f s).port = s.port := by unfold raise; split <;> rfl
@[simp] theorem raise_ipid (f : Fault) (s : State) : (raise f s).ipid = s.ipid := by unfold raise; split <;> rfl
@[simp] theorem raise_seq (f : Fault) (s : State) : (raise f s).seq = s.seq := by unfold raise; split <;> rfl
@[simp] theorem raise_hlen (f : Fault) (s : State) : (raise f s).hlen = s.hlen := by unfold raise; split <;> rfl
@[simp] theorem raise_dlen (f : Fault) (s : State) : (raise f s).dlen = s.dlen := by unfold raise; split <;> rfl
@[simp] theorem raise_sum (f : Fault) (s : State) : (raise f s).sum = s.sum := by unfold raise; split <;> rfl
@[simp] theorem raise_inited (f : Fault) (s : State) : (raise f s).inited = s.inited := by unfold raise; split <;> rfl
@[simp] theorem raise_sesv (f : Fault) (s : State) : (raise f s).sesv = s.sesv := by unfold raise; split <;> rfl
@[simp] theorem raise_rxlen (f : Fault) (s : State) : (raise f s).rxlen = s.rxlen := by unfold raise; split <;> rfl
@[simp] theorem raise_res (f : Fault) (s : State) : (raise f s).res = s.res := by unfold raise; split <;> rfl
@[simp] theorem raise_txlog (f : Fault) (s : State) : (raise f s).txlog = s.txlog := by unfold raise; split <;> rfl
@[simp] theorem raise_rx (f : Fault) (s : State) : (raise f s).rx = s.rx := by unfold raise; split <;> rfl
@[simp] theorem raise_cmds (f : Fault) (s : State) : (raise f s).cmds = s.cmds := by unfold raise; split <;> rfl
@[simp] theorem raise_resps (f : Fault) (s : State) : (raise f s).resps = s.resps := by unfold raise; split <;> rfl
@[simp] theorem raise_handler (f : Fault) (s : State) : (raise f s).handler = s.handler := by unfold raise; split <;> rfl
@[simp] theorem raise_reqlog (f : Fault) (s : State) : (raise f s).reqlog = s.reqlog := by unfold raise; split <;> rfl

/-- `raise` on a state without a fault (R292). -/
theorem raise_of_clear (f : Fault) {s : State} (h : s.fault = 0#8) : raise f s = { s with fault := f.code } := if_pos h

/-- `raise` never replaces the first fault (R31). -/
theorem raise_of_faulted (f : Fault) {s : State} (h : s.fault ≠ 0#8) : raise f s = s := if_neg h

/-! ### reset (R45) -/

@[simp] theorem State.resetWith_cfg (cfg : Config) : (State.resetWith cfg).cfg = cfg := rfl
@[simp] theorem State.resetWith_buf (cfg : Config) : (State.resetWith cfg).buf = [] := rfl
@[simp] theorem State.resetWith_ipid (cfg : Config) : (State.resetWith cfg).ipid = cfg.ipidReset := rfl
@[simp] theorem State.resetWith_seq (cfg : Config) : (State.resetWith cfg).seq = cfg.seqReset := rfl
@[simp] theorem State.resetWith_inited (cfg : Config) : (State.resetWith cfg).inited = false := rfl
@[simp] theorem State.resetWith_sesv (cfg : Config) : (State.resetWith cfg).sesv = false := rfl
@[simp] theorem State.resetWith_rxlen (cfg : Config) : (State.resetWith cfg).rxlen = 0#16 := rfl
@[simp] theorem State.resetWith_res (cfg : Config) : (State.resetWith cfg).res = 0#16 := rfl
@[simp] theorem State.resetWith_fault (cfg : Config) : (State.resetWith cfg).fault = 0#8 := rfl
@[simp] theorem State.resetWith_txlog (cfg : Config) : (State.resetWith cfg).txlog = [] := rfl
@[simp] theorem State.resetWith_rx (cfg : Config) : (State.resetWith cfg).rx = [] := rfl
@[simp] theorem State.resetWith_cmds (cfg : Config) : (State.resetWith cfg).cmds = [] := rfl
@[simp] theorem State.resetWith_resps (cfg : Config) : (State.resetWith cfg).resps = [] := rfl
@[simp] theorem State.resetWith_handler (cfg : Config) : (State.resetWith cfg).handler = [] := rfl
@[simp] theorem State.resetWith_reqlog (cfg : Config) : (State.resetWith cfg).reqlog = [] := rfl

end Sys2Proof.Machine
end

