-- ==== Sys2Proof/Laws/Ops.lean ====
section
/-! SUPPORT. What each shared operation can do, once: the order of a command's checks, how a run ends, and for every
operation the cases of its result. -/

namespace Sys2Proof.Machine

/-! ### Bounds and flags -/

theorem State.cap_ge (s : State) : 58 ≤ s.cap := s.cfg.cap.property.1

theorem State.cap_le (s : State) : s.cap ≤ 65535 := s.cfg.cap.property.2

@[simp] theorem State.faulted_iff (s : State) : s.faulted = true ↔ s.fault ≠ 0#8 := by simp [State.faulted]

@[simp] theorem State.faulted_false_iff (s : State) : s.faulted = false ↔ s.fault = 0#8 := by simp [State.faulted]

theorem u16_toNat {n : Nat} (h : n ≤ 65535) : (u16 n).toNat = n := by
  simp only [u16, BitVec.toNat_ofNat]
  omega

theorem Fault.code_ne_zero (f : Fault) : f.code ≠ 0#8 := by cases f <;> decide

theorem Fault.code_le (f : Fault) : f.code.toNat ≤ 6 := by cases f <;> decide

/-! ### Runs -/

@[simp] theorem Run.andThen_done (v : U16) (s : State) (next : U16 → State → Run) : (Run.done v s).andThen next = next v s := rfl

@[simp] theorem Run.andThen_raised (f : Fault) (s : State) (next : U16 → State → Run) :
    (Run.raised f s).andThen next = .raised f s := rfl

@[simp] theorem Run.finish_done (v : U16) (s : State) : (Run.done v s).finish = { s with res := v } := rfl

@[simp] theorem Run.finish_raised (f : Fault) (s : State) : (Run.raised f s).finish = raise f s := rfl

@[simp] theorem Run.outcome_done (code v : U16) (s : State) : (Run.done v s).outcome code = .done code s := rfl

@[simp] theorem Run.outcome_raised (code : U16) (f : Fault) (s : State) : (Run.raised f s).outcome code = .raised f s := rfl

/-- A property of the state a run ends in. -/
def Run.ends (P : State → Prop) : Run → Prop
  | .done _ s => P s
  | .raised _ s => P s

theorem Run.ends_andThen {P Q : State → Prop} {r : Run} {next : U16 → State → Run} (hr : r.ends P)
    (hnext : ∀ v s, P s → (next v s).ends Q) (hPQ : ∀ s, P s → Q s) : (r.andThen next).ends Q := by
  cases r with
  | done v s => exact hnext v s hr
  | raised f s => exact hPQ s hr

theorem Run.ends_outcome {P : State → Prop} {r : Run} (hr : r.ends P) (code : U16) : (r.outcome code).ends P := by
  cases r <;> exact hr

/-- What holds of the state a run ends in holds of the command's state, if neither `RES` nor `FAULT` matters to it. -/
theorem Run.finish_of_ends {P : State → Prop} {r : Run} (hr : r.ends P)
    (hres : ∀ s v, P s → P { s with res := v }) (hraise : ∀ s f, P s → P (raise f s)) : P r.finish := by
  cases r with
  | done v s => exact hres s v hr
  | raised f s => exact hraise s f hr

/-! ### Commands (R126) -/

theorem command_faulted (body : State → Run) {s : State} (h : s.fault ≠ 0#8) : command body s = .next s := by
  simp [command, h]

theorem command_notInitialised (body : State → Run) {s : State} (h : s.fault = 0#8) (hi : s.inited = false) :
    command body s = .next (raise .notInitialised s) := by
  simp [command, h, hi]

theorem command_ready (body : State → Run) {s : State} (h : s.fault = 0#8) (hi : s.inited = true) :
    command body s = .next (body s).finish := by
  simp [command, h, hi]

/-- Everything a command other than `INIT` can do (R126). -/
theorem command_cases (body : State → Run) (s : State) :
    (s.fault ≠ 0#8 ∧ command body s = .next s) ∨
    (s.fault = 0#8 ∧ s.inited = false ∧ command body s = .next (raise .notInitialised s)) ∨
    (s.fault = 0#8 ∧ s.inited = true ∧ command body s = .next (body s).finish) := by
  by_cases h : s.fault = 0#8
  · cases hi : s.inited
    · exact .inr (.inl ⟨h, rfl, command_notInitialised body h hi⟩)
    · exact .inr (.inr ⟨h, rfl, command_ready body h hi⟩)
  · exact .inl ⟨h, command_faulted body h⟩

/-- Everything `INIT` can do (R126, R261). -/
theorem execInit_cases (mac : Mac) (ip : Ip4) (port : Byte) (s : State) :
    (s.fault ≠ 0#8 ∧ execInit mac ip port s = .next s) ∨
    (s.fault = 0#8 ∧ s.inited = true ∧ execInit mac ip port s = .next (raise .alreadyInitialised s)) ∨
    (s.fault = 0#8 ∧ s.inited = false ∧
      execInit mac ip port s = .next { s with mac := mac, ip := ip, port := port, inited := true, res := 0#16 }) := by
  by_cases h : s.fault = 0#8
  · cases hi : s.inited <;> simp [execInit, h, hi, State.setInited]
  · simp [execInit, h]

/-! ### The interface boundary -/

/-- The device delivers at most `CAP` bytes (R305). -/
theorem deliverable_length (cap : Nat) (frame : List Byte) : (deliverable cap frame).length ≤ cap := by
  unfold deliverable
  split
  · assumption
  · exact List.length_take_le _ _

theorem deliverable_of_le {cap : Nat} {frame : List Byte} (h : frame.length ≤ cap) : deliverable cap frame = frame := if_pos h

theorem State.arriving_length (s : State) : s.arriving.length ≤ s.cap := deliverable_length _ _

theorem State.linkReceive_rxlen_toNat (s : State) : s.linkReceive.rxlen.toNat = s.arriving.length :=
  u16_toNat (s.arriving_length.trans s.cap_le)

@[simp] theorem State.linkReceive_cap (s : State) : s.linkReceive.cap = s.cap := rfl

@[simp] theorem State.tcpSend_cap (s : State) (z : Memory) (len n : Nat) : (s.tcpSend z len n).cap = s.cap := rfl

/-! ### The operations, case by case -/

/-- Everything `CKSUM.*` can do (R141, R142, R150 to R152). -/
theorem opCksum_cases (kind : Kind) (off len : U16) (s : State) :
    (kind ≠ .ip ∧ len.toNat < 8 ∧ opCksum kind off len s = .raised .badOperand s) ∨
    (¬(kind ≠ .ip ∧ len.toNat < 8) ∧ 0 < len.toNat ∧ s.cap < off.toNat + len.toNat ∧
      opCksum kind off len s = .raised .bufferBounds s) ∨
    (¬(kind ≠ .ip ∧ len.toNat < 8) ∧ ¬(0 < len.toNat ∧ s.cap < off.toNat + len.toNat) ∧
      opCksum kind off len s = .done (ckOf (s.buf.sumOf s.cfg kind off.toNat len.toNat))
        { s with sum := s.buf.sumOf s.cfg kind off.toNat len.toNat }) := by
  unfold opCksum
  split
  · rename_i h; exact .inl ⟨h.1, h.2, rfl⟩
  · rename_i h
    split
    · rename_i h2; exact .inr (.inl ⟨h, h2.1, h2.2, rfl⟩)
    · rename_i h2; exact .inr (.inr ⟨h, h2, rfl⟩)

/-- Everything `ICMP.REPLY` can do (R190). -/
theorem opIcmpReply_cases (len : U16) (s : State) :
    (len = 0#16 ∧ opIcmpReply len s = .raised .badOperand s) ∨
    (len ≠ 0#16 ∧ s.cap < len.toNat ∧ opIcmpReply len s = .raised .bufferBounds s) ∨
    (len ≠ 0#16 ∧ len.toNat ≤ s.cap ∧ opIcmpReply len s = .done len (State.send len.toNat { s with
      buf := icmpReplyFrame s.cfg s.mac s.ip s.buf
      sum := (ipZeroed s.cfg (icmpAddressed s.mac s.ip s.buf)).sumOf s.cfg .ip IP_VIHL 20 })) := by
  unfold opIcmpReply
  split
  · exact .inl ⟨‹_›, rfl⟩
  · split
    · exact .inr (.inl ⟨‹_›, ‹_›, rfl⟩)
    · exact .inr (.inr ⟨‹_›, by omega, rfl⟩)

/-- Everything `UDP.REPLY` can do (R200). -/
theorem opUdpReply_cases (sport : U16) (data : List Byte) (s : State) :
    (s.cap < 42 + (data.take s.cfg.udpMax).length ∧ opUdpReply sport data s = .raised .bufferBounds s) ∨
    (42 + (data.take s.cfg.udpMax).length ≤ s.cap ∧
      opUdpReply sport data s = .done (u16 (42 + (data.take s.cfg.udpMax).length))
        (State.send (42 + (data.take s.cfg.udpMax).length) { s with
          buf := (udpZeroed s.cfg s.mac s.ip sport (data.take s.cfg.udpMax) s.buf).storeCksum s.cfg .udp IP_SRC
            (16 + (data.take s.cfg.udpMax).length) UDP_CSUM
          sum := (udpZeroed s.cfg s.mac s.ip sport (data.take s.cfg.udpMax) s.buf).sumOf s.cfg .udp IP_SRC
            (16 + (data.take s.cfg.udpMax).length) })) := by
  simp only [opUdpReply]
  split
  · exact .inl ⟨‹_›, rfl⟩
  · exact .inr ⟨by omega, rfl⟩

/-- Everything `TCP.ACK` can do (R225). -/
theorem opTcpAck_cases (s : State) :
    (s.sesv = true ∧ opTcpAck s = .done 54#16 (s.tcpSend (ackZeroed s.cfg s.mac s.ip s.port s.dlen s.buf) 28 54)) ∨
    (s.sesv = false ∧ opTcpAck s = .raised .staleSession s) := by
  unfold opTcpAck
  cases h : s.sesv <;> simp

/-- Everything `TCP.ACKDATA` can do (R230). -/
theorem opTcpAckdata_cases (dlen : U16) (s : State) :
    (s.cap < 54 + dlen.toNat ∧ opTcpAckdata dlen s = .raised .bufferBounds s) ∨
    (54 + dlen.toNat ≤ s.cap ∧ opTcpAckdata dlen s = .done (u16 (54 + dlen.toNat))
      (s.tcpSend (ackdataZeroed s.cfg dlen s.buf) (28 + dlen.toNat) (54 + dlen.toNat))) := by
  unfold opTcpAckdata
  split
  · exact .inl ⟨‹_›, rfl⟩
  · exact .inr ⟨by omega, rfl⟩

/-- Everything `TCP.CLIENT` can do (R235). -/
theorem opTcpClient_cases (dmac : Mac) (dip : Ip4) (dport sport : U16) (flags : Byte) (mss clrack : Bool)
    (ackadv dlen : U16) (s : State) :
    (s.cap < 54 + optionBytes mss + dlen.toNat ∧
      opTcpClient dmac dip dport sport flags mss clrack ackadv dlen s = .raised .bufferBounds s) ∨
    (54 + optionBytes mss + dlen.toNat ≤ s.cap ∧
      opTcpClient dmac dip dport sport flags mss clrack ackadv dlen s =
        .done (u16 (54 + optionBytes mss + dlen.toNat))
          (State.tcpSend { s with ipid := s.ipid + 1#16, seq := if mss then s.seq + s.cfg.seqStep else s.seq }
            (clientZeroed s dmac dip dport sport flags mss clrack ackadv dlen) (28 + optionBytes mss + dlen.toNat)
            (54 + optionBytes mss + dlen.toNat))) := by
  simp only [opTcpClient]
  split
  · exact .inl ⟨‹_›, rfl⟩
  · exact .inr ⟨by omega, rfl⟩

/-- Everything `FILL` can do (R240). -/
theorem opFill_cases (pos : U16) (text : List Byte) (s : State) :
    (s.cap < 54 + pos.toNat + text.length ∧ opFill pos text s = .raised .bufferBounds s) ∨
    (54 + pos.toNat + text.length ≤ s.cap ∧
      opFill pos text s = .done (u16 (pos.toNat + text.length)) { s with buf := s.buf.wrBytes (54 + pos.toNat) text }) := by
  unfold opFill
  simp only [TCP_DATA0]
  split
  · exact .inl ⟨‹_›, rfl⟩
  · exact .inr ⟨by omega, rfl⟩

/-- Everything `SES.POFF` can do (R253). -/
theorem opSesPoff_cases (s : State) :
    (s.sesv = true ∧ opSesPoff s = .done (if s.dlen = 0#16 then 0#16 else 34#16 + s.hlen) s) ∨
    (s.sesv = false ∧ opSesPoff s = .raised .staleSession s) := by
  unfold opSesPoff
  cases h : s.sesv <;> simp

/-! ### The Dispatch Loop, case by case -/

/-- The state after `SES.DERIVE` (R251). -/
def State.derived (s : State) : State :=
  State.setSesv { s with hlen := headerLength s.buf, dlen := dataLength (s.buf.rd16 IP_TOTLEN) (headerLength s.buf) }

@[simp] theorem deriveRes_dataLength (dlen : U16) : deriveRes .dataLength dlen = dlen := rfl
@[simp] theorem deriveRes_bytesSent (dlen : U16) : deriveRes .bytesSent dlen = 0#16 := rfl

theorem opSesDerive_eq (s : State) : 
    opSesDerive s = .done (deriveRes s.cfg.deriveResult s.derived.dlen) s.derived := rfl

/-- The state in which rule 8 sends (R276): the handler was called, its response stands at offset 54. -/
def State.filled (s : State) (req resp : List Byte) : State :=
  { s.logRequest req with buf := s.buf.wrBytes 54 resp }

/-- The state after the bare acknowledgment of a segment (R225), when `SESV = 1`. -/
def State.acked (s : State) : State := s.tcpSend (ackZeroed s.cfg s.mac s.ip s.port s.dlen s.buf) 28 54

/-- The state after `TCP.ACKDATA` (R230), when the frame fits. -/
def State.answered (s : State) (dlen : U16) : State :=
  s.tcpSend (ackdataZeroed s.cfg dlen s.buf) (28 + dlen.toNat) (54 + dlen.toNat)

/-- Everything rule 8 can do (R276), `SESV = 1` there. -/
theorem dispatchData_cases (p : U16) (s : State) (h : s.sesv = true) :
    (s.cap < p.toNat + s.dlen.toNat ∧ dispatchData p s = .raised .bufferBounds s) ∨
    (p.toNat + s.dlen.toNat ≤ s.cap ∧ s.cap < 54 + (s.answer (s.buf.slice p.toNat s.dlen.toNat)).length ∧
      dispatchData p s = .raised .bufferBounds (s.logRequest (s.buf.slice p.toNat s.dlen.toNat))) ∨
    (p.toNat + s.dlen.toNat ≤ s.cap ∧ 54 + (s.answer (s.buf.slice p.toNat s.dlen.toNat)).length ≤ s.cap ∧
      dispatchData p s = .done 8
        (((s.filled (s.buf.slice p.toNat s.dlen.toNat) (s.answer (s.buf.slice p.toNat s.dlen.toNat))).acked).answered
          (u16 (s.answer (s.buf.slice p.toNat s.dlen.toNat)).length))) := by
  unfold dispatchData
  split
  · exact .inl ⟨‹_›, rfl⟩
  · rename_i h1
    right
    generalize s.buf.slice p.toNat s.dlen.toNat = req
    rcases opFill_cases 0#16 (s.answer req) (s.logRequest req) with ⟨h2, h3⟩ | ⟨h2, h3⟩
    · left
      refine ⟨by omega, by simpa [State.cap] using h2, ?_⟩
      simp only [h3]
      rfl
    · right
      have h4 : 54 + (s.answer req).length ≤ s.cap := by simpa [State.cap] using h2
      refine ⟨by omega, h4, ?_⟩
      simp only [h3, Run.andThen_done]
      have h5 : (u16 (s.answer req).length).toNat = (s.answer req).length :=
        u16_toNat (by have := s.cap_le; omega)
      rcases opTcpAck_cases (s.filled req (s.answer req)) with ⟨_, h6⟩ | ⟨h6, _⟩
      · have h7 : opTcpAck { s.logRequest req with buf := (s.logRequest req).buf.wrBytes (54 + (0#16).toNat) (s.answer req) }
            = .done 54#16 (s.filled req (s.answer req)).acked := h6
        rw [h7]
        simp only [Run.andThen_done]
        rcases opTcpAckdata_cases (u16 (s.answer req).length) (s.filled req (s.answer req)).acked with ⟨h8, _⟩ | ⟨_, h8⟩
        · exfalso
          have h9 : s.cap < 54 + (u16 (s.answer req).length).toNat := h8
          omega
        · rw [h8]
          rfl
      · have : s.sesv = false := h6
        simp [h] at this

/-- Everything rules 6 to 8 can do (R274). -/
theorem dispatchAck_cases (s : State) :
    (s.derived.dlen = 0#16 ∧ s.tcpFlag FIN = true ∧ dispatchAck s = .done 6#16 s.derived.acked) ∨
    (s.derived.dlen = 0#16 ∧ s.tcpFlag FIN = false ∧ dispatchAck s = .done 7#16 s.derived) ∨
    (s.derived.dlen ≠ 0#16 ∧ 34#16 + s.derived.hlen ≠ 0#16 ∧ dispatchAck s = dispatchData (34#16 + s.derived.hlen) s.derived) := by
  have hp : opSesPoff s.derived = .done (if s.derived.dlen = 0#16 then 0#16 else 34#16 + s.derived.hlen) s.derived := rfl
  have hh : 34#16 + s.derived.hlen ≠ 0#16 := by
    show 34#16 + headerLength s.buf ≠ 0#16
    unfold headerLength
    generalize (s.buf.rd TCP_HLEN).extractLsb' 4 4 = x
    revert x
    decide
  unfold dispatchAck
  rw [opSesDerive_eq, Run.andThen_done, hp, Run.andThen_done]
  by_cases h : s.derived.dlen = 0#16
  · rw [h, if_pos rfl, if_pos rfl]
    have h2 : s.derived.tcpFlag FIN = s.tcpFlag FIN := rfl
    have h3 : opTcpAck s.derived = .done 54#16 s.derived.acked := rfl
    rw [h2, h3]
    cases s.tcpFlag FIN
    · exact .inr (.inl ⟨rfl, rfl, rfl⟩)
    · exact .inl ⟨rfl, rfl, rfl⟩
  · refine .inr (.inr ⟨h, hh, ?_⟩)
    rw [if_neg h, if_neg hh]

/-- The bytes rule 2 tests (R271): an ARP request for this node. -/
def State.arpRequestForMe (s : State) : Bool := s.arpForMe s.rxlen.toNat && s.buf.slice ARP_OPER 2 == [0x00#8, 0x01#8]

/-- The bytes rule 4 tests (R272): an ICMP echo request. -/
def State.echoRequest (s : State) : Bool := s.buf.rd IP_PROTO == 1#8 && s.buf.rd ICMP_TYPE == 8#8

/-- Everything `DISPATCH` can do with the frame it received, rule by rule (R270 to R275); `s` is the state after the
receive. -/
theorem dispatchFrame_cases (s : State) (hn : s.rxlen ≠ 0#16) (hc : s.rxlen.toNat ≤ s.cap) :
    (s.arpRequestForMe = true ∧ dispatchFrame s.rxlen s =
      .done 2#16 (State.send 42 { s with buf := arpReplyFrame s.mac s.ip s.buf })) ∨
    (s.arpRequestForMe = false ∧ s.ip4ForMe s.rxlen.toNat = false ∧ dispatchFrame s.rxlen s = .done 3#16 s) ∨
    (s.arpRequestForMe = false ∧ s.ip4ForMe s.rxlen.toNat = true ∧ s.echoRequest = true ∧ dispatchFrame s.rxlen s =
      .done 4#16 (State.send s.rxlen.toNat { s with
        buf := icmpReplyFrame s.cfg s.mac s.ip s.buf
        sum := (ipZeroed s.cfg (icmpAddressed s.mac s.ip s.buf)).sumOf s.cfg .ip IP_VIHL 20 })) ∨
    (s.arpRequestForMe = false ∧ s.ip4ForMe s.rxlen.toNat = true ∧ s.echoRequest = false ∧ s.tcpForMe = true ∧
      s.tcpFlag SYN = true ∧ dispatchFrame s.rxlen s =
        .done 5#16 (State.tcpSend { s with seq := s.seq + s.cfg.seqStep }
          (synackZeroed s.cfg s.mac s.ip s.port s.seq s.buf) 32 58)) ∨
    (s.arpRequestForMe = false ∧ s.ip4ForMe s.rxlen.toNat = true ∧ s.echoRequest = false ∧ s.tcpForMe = true ∧
      s.tcpFlag SYN = false ∧ s.tcpFlag ACK = true ∧ dispatchFrame s.rxlen s = dispatchAck s) ∨
    (s.arpRequestForMe = false ∧ s.ip4ForMe s.rxlen.toNat = true ∧ s.echoRequest = false ∧
      (s.tcpForMe = false ∨ s.tcpFlag SYN = false ∧ s.tcpFlag ACK = false) ∧ dispatchFrame s.rxlen s = .done 9#16 s) := by
  have hi : opIcmpReply s.rxlen s = .done s.rxlen (State.send s.rxlen.toNat { s with
      buf := icmpReplyFrame s.cfg s.mac s.ip s.buf
      sum := (ipZeroed s.cfg (icmpAddressed s.mac s.ip s.buf)).sumOf s.cfg .ip IP_VIHL 20 }) := by
    rcases opIcmpReply_cases s.rxlen s with ⟨h, _⟩ | ⟨_, h, _⟩ | ⟨_, _, h⟩
    · exact absurd h hn
    · omega
    · exact h
  unfold dispatchFrame
  rw [← State.arpRequestForMe, ← State.echoRequest, hi]
  cases h1 : s.arpRequestForMe
  case true => exact .inl ⟨rfl, rfl⟩
  cases h2 : s.ip4ForMe s.rxlen.toNat
  case false => exact .inr (.inl ⟨rfl, rfl, by simp⟩)
  cases h3 : s.echoRequest
  case true => exact .inr (.inr (.inl ⟨rfl, rfl, rfl, by simp⟩))
  cases h4 : s.tcpForMe
  case false => exact .inr (.inr (.inr (.inr (.inr ⟨rfl, rfl, rfl, .inl rfl, by simp⟩))))
  cases h5 : s.tcpFlag SYN
  case true => exact .inr (.inr (.inr (.inl ⟨rfl, rfl, rfl, rfl, rfl, by simp [opTcpSynack]⟩)))
  cases h6 : s.tcpFlag ACK
  case true => exact .inr (.inr (.inr (.inr (.inl ⟨rfl, rfl, rfl, rfl, rfl, rfl, by simp⟩))))
  case false => exact .inr (.inr (.inr (.inr (.inr ⟨rfl, rfl, rfl, .inr ⟨rfl, rfl⟩, by simp⟩))))

/-- `DISPATCH` on an empty receive, else on the frame received (R270). -/
theorem opDispatch_cases (s : State) :
    (s.linkReceive.rxlen = 0#16 ∧ opDispatch s = .done 1#16 s.linkReceive) ∨
    (s.linkReceive.rxlen ≠ 0#16 ∧ s.linkReceive.rxlen.toNat ≤ s.cap ∧
      opDispatch s = dispatchFrame s.linkReceive.rxlen s.linkReceive) := by
  have e : opDispatch s = if s.linkReceive.rxlen = 0#16 then .done 1#16 s.linkReceive
      else dispatchFrame s.linkReceive.rxlen s.linkReceive := rfl
  by_cases h : s.linkReceive.rxlen = 0#16
  · exact .inl ⟨h, by rw [e, if_pos h]⟩
  · refine .inr ⟨h, ?_, by rw [e, if_neg h]⟩
    rw [State.linkReceive_rxlen_toNat]
    exact s.arriving_length

end Sys2Proof.Machine
end

