-- ==== Sys2Proof/Laws/Checksum.lean ====
section
/-! SUPPORT. What the phases of the Checksum Engine compute, as numbers, and what a receive leaves in the buffer. -/

namespace Sys2Proof.Machine

/-- A sum that fits the register is exact (R146). -/
theorem accAdd_exact {w sum x : Nat} (h : sum + x < 2 ^ w) : accAdd w sum x = sum + x := Nat.mod_eq_of_lt h

theorem accAdd_lt (w sum x : Nat) : accAdd w sum x < 2 ^ w := Nat.mod_lt _ (Nat.two_pow_pos w)

/-- Injection leaves a value of the register (R142). -/
theorem injected_lt (cfg : Config) (kind : Kind) (len : Nat) : injected cfg kind len < 2 ^ cfg.accW.val := by
  cases kind
  · exact Nat.two_pow_pos _
  · exact accAdd_lt _ _ _
  · exact accAdd_lt _ _ _

/-- Summation keeps `SUM` a value of the register (R143). -/
theorem sumWords_lt (w : Nat) : ∀ (bytes : List Byte) {sum : Nat}, sum < 2 ^ w → sumWords w sum bytes < 2 ^ w
  | [], _, h => h
  | [_], _, _ => accAdd_lt _ _ _
  | _ :: _ :: rest, _, _ => sumWords_lt w rest (accAdd_lt _ _ _)

/-- Folding never raises the sum (R144). -/
theorem foldSum_le : ∀ passes sum, foldSum passes sum ≤ sum
  | 0, _ => Nat.le_refl _
  | passes + 1, sum => by
    unfold foldSum
    split
    · exact Nat.le_refl _
    · have := foldSum_le passes (sum % 65536 + sum / 65536)
      omega

/-- What an evaluation leaves in `SUM` fits the register (R33). -/
theorem foldedSum_lt (cfg : Config) (kind : Kind) (bytes : List Byte) : foldedSum cfg kind bytes < 2 ^ cfg.accW.val :=
  Nat.lt_of_le_of_lt (foldSum_le _ _) (sumWords_lt _ _ (injected_lt _ _ _))

/-- Two passes fold every sum below 2^32: 0 stays 0, any other sum becomes its representative in 1..65535 modulo 65535
(R144). -/
theorem foldSum_eq {sum : Nat} (h : sum < 2 ^ 32) : foldSum 2 sum = if sum = 0 then 0 else (sum - 1) % 65535 + 1 := by
  unfold foldSum
  split
  · split <;> omega
  · unfold foldSum
    split
    · split <;> omega
    · unfold foldSum
      split <;> omega

/-- The complement of a folded sum (R145). -/
theorem ckOf_toNat {sum : Nat} (h : sum < 65536) : (ckOf sum).toNat = 65535 - sum := by
  unfold ckOf
  rw [BitVec.toNat_not, BitVec.toNat_ofNat]
  omega

/-- A receive puts the delivered frame at offset 0 and leaves every other byte (R305). -/
theorem State.linkReceive_rd (s : State) (b : Nat) :
    s.linkReceive.buf.rd b = if h : b < s.arriving.length then s.arriving[b] else s.buf.rd b := by
  show (s.buf.wrBytes 0 s.arriving).rd b = _
  split
  · rename_i h
    have := Memory.rd_wrBytes_inside s.buf 0 b s.arriving h
    simpa using this
  · exact Memory.rd_wrBytes_outside s.buf 0 b s.arriving (by omega)

end Sys2Proof.Machine
end

