-- ==== Sys2Proof/Laws/Frames.lean ====
section
/-! SUPPORT. The buffer each operation leaves: its canonical form is kept and every listed offset stays below `CAP`. With
the lemmas of `Laws/Memory.lean` this covers every operation on memory, and reset's memory has the form. -/

namespace Sys2Proof.Machine

/-! ### Reset -/

theorem State.resetWith_buf_wf (cfg : Config) : (State.resetWith cfg).buf.wf := .nil

theorem State.reset_buf_wf : State.reset.buf.wf := .nil

/-! ### The canonical form is kept -/

theorem State.linkReceive_wf {s : State} (h : s.buf.wf) : s.linkReceive.buf.wf := Memory.wf_wrBytes _ h 0

theorem wf_icmpPatch {m : Memory} (h : m.wf) : (icmpPatch m).wf := by
  unfold icmpPatch
  split
  · exact Memory.wf_wr (Memory.wf_wr h _ _) _ _
  · exact Memory.wf_wr h _ _

theorem wf_icmpReplyFrame {m : Memory} (h : m.wf) (cfg : Config) (mac : Mac) (ip : Ip4) : (icmpReplyFrame cfg mac ip m).wf :=
  wf_icmpPatch (Memory.wf_wr (wf_ipFinish (Memory.wf_turnRound _ (wf_ethReply h mac) _ _) cfg) _ _)

theorem wf_arpReplyFrame {m : Memory} (h : m.wf) (mac : Mac) (ip : Ip4) : (arpReplyFrame mac ip m).wf :=
  Memory.wf_wr (Memory.wf_wr (Memory.wf_turnRound _ (Memory.wf_turnRound _ (wf_ethReply h mac) _ _) _ _) _ _) _ _

theorem wf_arpReqFrame {m : Memory} (h : m.wf) (mac : Mac) (ip : Ip4) (dmac : Mac) (tip : Ip4) :
    (arpReqFrame mac ip dmac tip m).wf :=
  Memory.wf_wrBytes _ (Memory.wf_wrBytes _ (Memory.wf_wrBytes _ (Memory.wf_wrBytes _ (Memory.wf_wrBytes _
    (Memory.wf_wr (Memory.wf_wr (wf_ethNew h _ _) _ _) _ _) _) _) _) _) _

theorem wf_udpZeroed {m : Memory} (h : m.wf) (cfg : Config) (mac : Mac) (ip : Ip4) (sport : U16) (payload : List Byte) :
    (udpZeroed cfg mac ip sport payload m).wf :=
  Memory.wf_wr (Memory.wf_wr (Memory.wf_wr16 (Memory.wf_wrBytes _ (Memory.wf_wr16 (wf_portsTurn (wf_ipReply
    (Memory.wf_wr16 (wf_ethReply h _) _ _) _ _)) _ _) _) _ _) _ _) _ _

theorem wf_synackZeroed {m : Memory} (h : m.wf) (cfg : Config) (mac : Mac) (ip : Ip4) (port seq : Byte) :
    (synackZeroed cfg mac ip port seq m).wf :=
  wf_tcpHead (Memory.wf_wr (wf_ipReply (Memory.wf_wr16 (wf_ethReply h _) _ _) _ _) _ _) _ _ _ _ _ _

theorem wf_ackZeroed {m : Memory} (h : m.wf) (cfg : Config) (mac : Mac) (ip : Ip4) (port : Byte) (dlen : U16) :
    (ackZeroed cfg mac ip port dlen m).wf :=
  wf_ipReply (Memory.wf_wr16 (wf_tcpHead (Memory.wf_wr (wf_ethReply h _) _ _) _ _ _ _ _ _) _ _) _ _

theorem wf_ackdataZeroed {m : Memory} (h : m.wf) (cfg : Config) (dlen : U16) : (ackdataZeroed cfg dlen m).wf :=
  Memory.wf_wr (Memory.wf_wr (wf_ipFinish (Memory.wf_wr16 (Memory.wf_wr h _ _) _ _) _) _ _) _ _

theorem wf_clientTurn {m : Memory} (h : m.wf) (ackadv : U16) : (clientTurn ackadv m).wf := by
  unfold clientTurn
  split
  · exact h
  · exact Memory.wf_wr32 (Memory.wf_wr32 h _ _) _ _

theorem wf_clientSeq {m : Memory} (h : m.wf) (seq : Byte) (mss : Bool) : (clientSeq seq mss m).wf := by
  unfold clientSeq
  split
  · exact Memory.wf_wr32 h _ _
  · exact h

theorem wf_clientIp {m : Memory} (h : m.wf) (cfg : Config) (ip dip : Ip4) (ipid totlen : U16) :
    (clientIp cfg ip dip ipid totlen m).wf :=
  wf_ipFinish (Memory.wf_wrBytes _ (Memory.wf_wrBytes _ (Memory.wf_wr (Memory.wf_wr (Memory.wf_wr (Memory.wf_wr
    (Memory.wf_wr16 (Memory.wf_wr16 (Memory.wf_wr (Memory.wf_wr h _ _) _ _) _ _) _ _) _ _) _ _) _ _) _ _) _) _) _

theorem wf_clientTail {m : Memory} (h : m.wf) (cfg : Config) (flags : Byte) (clrack : Bool) :
    (clientTail cfg flags clrack m).wf := by
  unfold clientTail
  split
  · exact Memory.wf_wr (Memory.wf_wr (Memory.wf_wr (Memory.wf_wr (Memory.wf_wr16 (Memory.wf_wr (Memory.wf_wr32 h _ _)
      _ _) _ _) _ _) _ _) _ _) _ _
  · exact Memory.wf_wr (Memory.wf_wr (Memory.wf_wr (Memory.wf_wr (Memory.wf_wr16 (Memory.wf_wr h _ _) _ _) _ _) _ _) _ _) _ _

theorem wf_clientZeroed {s : State} (h : s.buf.wf) (dmac : Mac) (dip : Ip4) (dport sport : U16) (flags : Byte)
    (mss clrack : Bool) (ackadv dlen : U16) : (clientZeroed s dmac dip dport sport flags mss clrack ackadv dlen).wf :=
  wf_clientTail (wf_clientIp (wf_tcpOption (wf_clientSeq (wf_clientTurn (Memory.wf_wr16 (Memory.wf_wr16
    (Memory.wf_wr (Memory.wf_wr (wf_ethNew h _ _) _ _) _ _) _ _) _ _) _) _ _) _ _) _ _ _ _ _) _ _ _

/-! ### Every listed offset stays below `CAP` -/

theorem State.linkReceive_inside {s : State} (h : s.buf.inside s.cap) : s.linkReceive.buf.inside s.cap :=
  Memory.inside_wrBytes _ h (by have := s.arriving_length; omega)

theorem inside_icmpPatch {cap : Nat} {m : Memory} (hc : 58 ≤ cap) (h : m.inside cap) : (icmpPatch m).inside cap := by
  simp only [icmpPatch]
  split
  · exact Memory.inside_wr (Memory.inside_wr h (by simp; omega) _) (by simp; omega) _
  · exact Memory.inside_wr h (by simp; omega) _

theorem inside_icmpReplyFrame {cap : Nat} {m : Memory} (hc : 58 ≤ cap) (h : m.inside cap) (cfg : Config) (mac : Mac)
    (ip : Ip4) : (icmpReplyFrame cfg mac ip m).inside cap :=
  inside_icmpPatch hc (Memory.inside_wr (inside_ipFinish hc (Memory.inside_turnRound _ (inside_ethReply hc h mac)
    (by simp; omega) (by simp; omega)) cfg) (by simp; omega) _)

theorem inside_arpReplyFrame {cap : Nat} {m : Memory} (hc : 58 ≤ cap) (h : m.inside cap) (mac : Mac) (ip : Ip4) :
    (arpReplyFrame mac ip m).inside cap :=
  Memory.inside_wr (Memory.inside_wr (Memory.inside_turnRound _ (Memory.inside_turnRound _ (inside_ethReply hc h mac)
    (by simp; omega) (by simp; omega)) (by simp; omega) (by simp; omega)) (by simp; omega) _) (by simp; omega) _

theorem inside_arpReqFrame {cap : Nat} {m : Memory} (hc : 58 ≤ cap) (h : m.inside cap) (mac : Mac) (ip : Ip4) (dmac : Mac)
    (tip : Ip4) : (arpReqFrame mac ip dmac tip m).inside cap :=
  Memory.inside_wrBytes _ (Memory.inside_wrBytes _ (Memory.inside_wrBytes _ (Memory.inside_wrBytes _
    (Memory.inside_wrBytes _ (Memory.inside_wr (Memory.inside_wr (inside_ethNew hc h _ _) (by simp; omega) _)
    (by simp; omega) _) (by simp [arpRequestHeader]; omega)) (by simp; omega))
    (by simp; omega)) (by simp; omega)) (by simp; omega)

theorem inside_udpZeroed {cap : Nat} {m : Memory} (hc : 58 ≤ cap) (h : m.inside cap) (cfg : Config) (mac : Mac) (ip : Ip4)
    (sport : U16) (payload : List Byte) (hp : 42 + payload.length ≤ cap) :
    (udpZeroed cfg mac ip sport payload m).inside cap :=
  Memory.inside_wr (Memory.inside_wr (Memory.inside_wr16 (Memory.inside_wrBytes _ (Memory.inside_wr16
    (inside_portsTurn hc (inside_ipReply hc (Memory.inside_wr16 (inside_ethReply hc h _) (by simp; omega) _) _ _))
    (by simp; omega) _) (by simpa using hp)) (by simp; omega) _) (by simp; omega) _) (by simp; omega) _

theorem inside_synackZeroed {cap : Nat} {m : Memory} (hc : 58 ≤ cap) (h : m.inside cap) (cfg : Config) (mac : Mac)
    (ip : Ip4) (port seq : Byte) : (synackZeroed cfg mac ip port seq m).inside cap :=
  inside_tcpHead hc (Memory.inside_wr (inside_ipReply hc (Memory.inside_wr16 (inside_ethReply hc h _)
    (by simp; omega) _) _ _) (by simp; omega) _) _ _ _ _ _ _

theorem inside_ackZeroed {cap : Nat} {m : Memory} (hc : 58 ≤ cap) (h : m.inside cap) (cfg : Config) (mac : Mac)
    (ip : Ip4) (port : Byte) (dlen : U16) : (ackZeroed cfg mac ip port dlen m).inside cap :=
  inside_ipReply hc (Memory.inside_wr16 (inside_tcpHead hc (Memory.inside_wr (inside_ethReply hc h _)
    (by simp; omega) _) _ _ _ _ _ _) (by simp; omega) _) _ _

theorem inside_ackdataZeroed {cap : Nat} {m : Memory} (hc : 58 ≤ cap) (h : m.inside cap) (cfg : Config) (dlen : U16) :
    (ackdataZeroed cfg dlen m).inside cap :=
  Memory.inside_wr (Memory.inside_wr (inside_ipFinish hc (Memory.inside_wr16 (Memory.inside_wr h (by simp; omega)
    _) (by simp; omega) _) _) (by simp; omega) _) (by simp; omega) _

theorem inside_clientTurn {cap : Nat} {m : Memory} (hc : 58 ≤ cap) (h : m.inside cap) (ackadv : U16) :
    (clientTurn ackadv m).inside cap := by
  simp only [clientTurn]
  split
  · exact h
  · exact Memory.inside_wr32 (Memory.inside_wr32 h (by simp; omega) _) (by simp; omega) _

theorem inside_clientSeq {cap : Nat} {m : Memory} (hc : 58 ≤ cap) (h : m.inside cap) (seq : Byte) (mss : Bool) :
    (clientSeq seq mss m).inside cap := by
  simp only [clientSeq]
  split
  · exact Memory.inside_wr32 h (by simp; omega) _
  · exact h

theorem inside_clientIp {cap : Nat} {m : Memory} (hc : 58 ≤ cap) (h : m.inside cap) (cfg : Config) (ip dip : Ip4)
    (ipid totlen : U16) : (clientIp cfg ip dip ipid totlen m).inside cap :=
  inside_ipFinish hc (Memory.inside_wrBytes _ (Memory.inside_wrBytes _ (Memory.inside_wr (Memory.inside_wr
    (Memory.inside_wr (Memory.inside_wr (Memory.inside_wr16 (Memory.inside_wr16 (Memory.inside_wr (Memory.inside_wr h
    (by simp; omega) _) (by simp; omega) _) (by simp; omega) _) (by simp; omega) _) (by simp; omega) _)
    (by simp; omega) _) (by simp; omega) _) (by simp; omega) _) (by simp; omega)) (by simp; omega)) _

theorem inside_clientTail {cap : Nat} {m : Memory} (hc : 58 ≤ cap) (h : m.inside cap) (cfg : Config) (flags : Byte)
    (clrack : Bool) : (clientTail cfg flags clrack m).inside cap := by
  have rest : ∀ {m : Memory}, m.inside cap →
      (((((m.wr TCP_FLAGS flags).wr16 TCP_WIN cfg.clientWindow).wr TCP_CSUM 0#8).wr (TCP_CSUM + 1) 0#8).wr TCP_URG 0#8
        |>.wr (TCP_URG + 1) 0#8).inside cap := fun h =>
    Memory.inside_wr (Memory.inside_wr (Memory.inside_wr (Memory.inside_wr (Memory.inside_wr16 (Memory.inside_wr h
      (by simp; omega) _) (by simp; omega) _) (by simp; omega) _) (by simp; omega) _) (by simp; omega) _) (by simp; omega) _
  unfold clientTail
  split
  · exact rest (Memory.inside_wr32 h (by simp; omega) _)
  · exact rest h

theorem inside_clientZeroed {s : State} (h : s.buf.inside s.cap) (dmac : Mac) (dip : Ip4) (dport sport : U16) (flags : Byte)
    (mss clrack : Bool) (ackadv dlen : U16) :
    (clientZeroed s dmac dip dport sport flags mss clrack ackadv dlen).inside s.cap :=
  have hc := s.cap_ge
  inside_clientTail hc (inside_clientIp hc (inside_tcpOption hc (inside_clientSeq hc (inside_clientTurn hc
    (Memory.inside_wr16 (Memory.inside_wr16 (Memory.inside_wr (Memory.inside_wr (inside_ethNew hc h _ _)
    (by simp; omega) _) (by simp; omega) _) (by simp; omega) _) (by simp; omega) _) _) _ _) _ _) _ _ _ _ _) _ _ _

end Sys2Proof.Machine
end

