-- ==== Sys2Proof/Laws/PerInstr.lean ====
section
/-! SUPPORT. Statements about the operations as syntax, one lemma per constructor of `Instr`. -/

namespace Sys2Proof.Laws

/-- The encoding of a well-formed operation starts with its opcode byte (R122) and has the length its format requires, the
count `n` read at command bytes 3 and 4 (R121, R125). -/
def EncodedShape.Statement (i : Instr) : Prop :=
  i.wellFormed = true →
    (encode i).head? = some i.op.byte ∧
      (encode i).length = i.op.format.length (be16 ((encode i).getD 3 0#8) ((encode i).getD 4 0#8)).toNat

/-- The length of a command with a counted byte string (formats `U` and `F`). -/
theorem countedBytes_shape (x : U16) (bytes : List Byte) (h : countFits bytes = true) :
    (countedBytes x bytes).length + 1 =
      5 + (be16 ((countedBytes x bytes).getD 2 0#8) ((countedBytes x bytes).getD 3 0#8)).toNat := by
  have hn : bytes.length < 65536 := of_decide_eq_true h
  have hu : (u16 bytes.length).toNat = bytes.length := by
    simp only [u16, BitVec.toNat_ofNat]
    omega
  show bytes.length + 4 + 1 = 5 + (be16 (hi (u16 bytes.length)) (lo (u16 bytes.length))).toNat
  rw [Machine.be16_hi_lo, hu]
  omega

theorem EncodedShape.init (mac : Mac) (ip : Ip4) (port : Byte) :
    EncodedShape.Statement (.init mac ip port) := fun _ => ⟨rfl, rfl⟩

theorem EncodedShape.cksumIp (off : U16) (len : U16) : EncodedShape.Statement (.cksumIp off len) := fun _ => ⟨rfl, rfl⟩

theorem EncodedShape.cksumUdp (off : U16) (len : U16) : EncodedShape.Statement (.cksumUdp off len) := fun _ => ⟨rfl, rfl⟩

theorem EncodedShape.cksumTcp (off : U16) (len : U16) : EncodedShape.Statement (.cksumTcp off len) := fun _ => ⟨rfl, rfl⟩

theorem EncodedShape.clsArp (len : U16) : EncodedShape.Statement (.clsArp len) := fun _ => ⟨rfl, rfl⟩

theorem EncodedShape.clsIp4 (len : U16) : EncodedShape.Statement (.clsIp4 len) := fun _ => ⟨rfl, rfl⟩

theorem EncodedShape.clsArprply : EncodedShape.Statement .clsArprply := fun _ => ⟨rfl, rfl⟩

theorem EncodedShape.arpReply : EncodedShape.Statement .arpReply := fun _ => ⟨rfl, rfl⟩

theorem EncodedShape.arpReq (dmac : Mac) (tip : Ip4) : EncodedShape.Statement (.arpReq dmac tip) := fun _ => ⟨rfl, rfl⟩

theorem EncodedShape.icmpReply (len : U16) : EncodedShape.Statement (.icmpReply len) := fun _ => ⟨rfl, rfl⟩

theorem EncodedShape.udpReply (sport : U16) (data : List Byte) : EncodedShape.Statement (.udpReply sport data) := fun h =>
  ⟨rfl, countedBytes_shape sport data h⟩

theorem EncodedShape.tcpSynack : EncodedShape.Statement .tcpSynack := fun _ => ⟨rfl, rfl⟩

theorem EncodedShape.tcpAck : EncodedShape.Statement .tcpAck := fun _ => ⟨rfl, rfl⟩

theorem EncodedShape.tcpAckdata (dlen : U16) : EncodedShape.Statement (.tcpAckdata dlen) := fun _ => ⟨rfl, rfl⟩

theorem EncodedShape.tcpClient (dmac : Mac) (dip : Ip4) (dport : U16) (sport : U16) (flags : Byte) (mss : Bool) (clrack : Bool)
    (ackadv : U16) (dlen : U16) :
    EncodedShape.Statement (.tcpClient dmac dip dport sport flags mss clrack ackadv dlen) := fun _ => ⟨rfl, rfl⟩

theorem EncodedShape.fill (pos : U16) (text : List Byte) : EncodedShape.Statement (.fill pos text) := fun h =>
  ⟨rfl, countedBytes_shape pos text h⟩

theorem EncodedShape.sesDerive : EncodedShape.Statement .sesDerive := fun _ => ⟨rfl, rfl⟩

theorem EncodedShape.sesPoff : EncodedShape.Statement .sesPoff := fun _ => ⟨rfl, rfl⟩

theorem EncodedShape.dispatch : EncodedShape.Statement .dispatch := fun _ => ⟨rfl, rfl⟩

theorem EncodedShape.recv : EncodedShape.Statement .recv := fun _ => ⟨rfl, rfl⟩

end Sys2Proof.Laws
end

