-- ==== Sys2Proof/Tests/Slice0.lean ====
section
/-! SUPPORT. Tests: the well-formedness checks, decoding of words written out from the spec's tables, one step of every
operation against the vectors of `95_test_vectors.md`, and a witness for every statement with hypotheses. Every expected
value is the spec's own. -/

namespace Sys2Proof.Tests

open Sys2Proof.Machine Sys2Proof.Claims

-- One theorem after another: checked side by side, the threads' stacks together pass the memory limit of the check.
set_option Elab.async false

/-! ### Well-formedness: the count of a byte string is a `u16` (R121) -/

theorem test_wellFormed_udpReply_refuses_long_data : (Instr.udpReply 7#16 (List.replicate 65536 0#8)).wellFormed = false := by
  simp only [Instr.wellFormed, countFits, List.length_replicate]; decide

theorem test_wellFormed_fill_refuses_long_text : (Instr.fill 0#16 (List.replicate 65536 0#8)).wellFormed = false := by
  simp only [Instr.wellFormed, countFits, List.length_replicate]; decide

theorem test_wellFormed_fill_takes_longest_text : (Instr.fill 0#16 (List.replicate 65535 0#8)).wellFormed = true := by
  simp only [Instr.wellFormed, countFits, List.length_replicate]; decide

/-! ### Decoding: words from the encodings of `95_test_vectors.md` -/

/-- Bytes from numbers. -/
def bytes (l : List Nat) : List Byte := l.map (BitVec.ofNat 8)

/-- The node's MAC address, `02:00:00:00:00:01`. -/
def nodeMac : Mac := ⟨0x02#8, 0x00#8, 0x00#8, 0x00#8, 0x00#8, 0x01#8⟩

/-- The peer's MAC address, `02:00:00:00:00:02`. -/
def peerMac : Mac := ⟨0x02#8, 0x00#8, 0x00#8, 0x00#8, 0x00#8, 0x02#8⟩

/-- The broadcast MAC address. -/
def broadcast : Mac := ⟨0xFF#8, 0xFF#8, 0xFF#8, 0xFF#8, 0xFF#8, 0xFF#8⟩

/-- The node's IP address, `192.168.0.10`. -/
def nodeIp : Ip4 := ⟨192#8, 168#8, 0#8, 10#8⟩

/-- The peer's IP address, `192.168.0.1`. -/
def peerIp : Ip4 := ⟨192#8, 168#8, 0#8, 1#8⟩

/-- P1 row 1. -/
theorem test_decode_init :
    decode (bytes [0x00, 0x02, 0x00, 0x00, 0x00, 0x00, 0x01, 0xC0, 0xA8, 0x00, 0x0A, 0x50]) = .ok (.init nodeMac nodeIp 80#8) := by
  decide +kernel

/-- V1a. -/
theorem test_decode_cksumIp :
    decode (bytes [0x10, 0x00, 0x0E, 0x00, 0x14]) = .ok (.cksumIp 14#16 20#16) := by
  decide +kernel

/-- V14. -/
theorem test_decode_cksumUdp :
    decode (bytes [0x11, 0x01, 0x2C, 0x00, 0x07]) = .ok (.cksumUdp 300#16 7#16) := by
  decide +kernel

/-- V13. -/
theorem test_decode_cksumTcp :
    decode (bytes [0x12, 0x00, 0x1A, 0x00, 0x2E]) = .ok (.cksumTcp 26#16 46#16) := by
  decide +kernel

/-- V15. -/
theorem test_decode_clsArp :
    decode (bytes [0x20, 0xFF, 0xFF]) = .ok (.clsArp 65535#16) := by
  decide +kernel

/-- V16. -/
theorem test_decode_clsIp4 :
    decode (bytes [0x21, 0x00, 0x2E]) = .ok (.clsIp4 46#16) := by
  decide +kernel

/-- V17. -/
theorem test_decode_clsArprply :
    decode (bytes [0x22]) = .ok (.clsArprply) := by
  decide +kernel

/-- V20. -/
theorem test_decode_arpReply :
    decode (bytes [0x30]) = .ok (.arpReply) := by
  decide +kernel

/-- P4. -/
theorem test_decode_arpReq :
    decode (bytes [0x31, 0xFF, 0xFF, 0xFF, 0xFF, 0xFF, 0xFF, 0xC0, 0xA8, 0x00, 0x01]) = .ok (.arpReq broadcast peerIp) := by
  decide +kernel

/-- V21. -/
theorem test_decode_icmpReply :
    decode (bytes [0x32, 0x00, 0xFB]) = .ok (.icmpReply 251#16) := by
  decide +kernel

/-- V22. -/
theorem test_decode_udpReply :
    decode (bytes [0x33, 0x00, 0x07, 0x00, 0x05, 0x70, 0x6F, 0x6E, 0x67, 0x21]) = .ok (.udpReply 7#16 (bytes [0x70, 0x6F, 0x6E, 0x67, 0x21])) := by
  decide +kernel

/-- V30. -/
theorem test_decode_tcpSynack :
    decode (bytes [0x40]) = .ok (.tcpSynack) := by
  decide +kernel

/-- V32. -/
theorem test_decode_tcpAck :
    decode (bytes [0x41]) = .ok (.tcpAck) := by
  decide +kernel

/-- V33. -/
theorem test_decode_tcpAckdata :
    decode (bytes [0x42, 0x00, 0xC5]) = .ok (.tcpAckdata 197#16) := by
  decide +kernel

/-- V35. -/
theorem test_decode_tcpClient :
    decode (bytes [0x43, 0x02, 0x00, 0x00, 0x00, 0x00, 0x02, 0xC0, 0xA8, 0x00, 0x01, 0x00, 0x50, 0xC0,
        0x00, 0x02, 0x03, 0x00, 0x00, 0x00, 0x00]) =
      .ok (.tcpClient peerMac peerIp 80#16 0xC000#16 0x02#8 true true 0#16 0#16) := by
  decide +kernel

/-- V34. -/
theorem test_decode_fill :
    decode (bytes [0x44, 0x00, 0xC4, 0x00, 0x01, 0x7A]) = .ok (.fill 196#16 [0x7A#8]) := by
  decide +kernel

/-- V32. -/
theorem test_decode_sesDerive :
    decode (bytes [0x50]) = .ok (.sesDerive) := by
  decide +kernel

/-- V41. -/
theorem test_decode_sesPoff :
    decode (bytes [0x51]) = .ok (.sesPoff) := by
  decide +kernel

/-- P1. -/
theorem test_decode_dispatch :
    decode (bytes [0x60]) = .ok (.dispatch) := by
  decide +kernel

/-- V41. -/
theorem test_decode_recv :
    decode (bytes [0x61]) = .ok (.recv) := by
  decide +kernel

/-- R121: bit 0 of `ctl` alone is `MSS`; the ports, `flags`, `ackadv` and `dlen` are where the format puts them. -/
theorem test_decode_client_fields :
    decode (bytes [0x43, 1, 2, 3, 4, 5, 6, 7, 8, 9, 10, 11, 12, 13, 14, 15, 1, 17, 18, 19, 20]) =
      .ok (.tcpClient ⟨1#8, 2#8, 3#8, 4#8, 5#8, 6#8⟩ ⟨7#8, 8#8, 9#8, 10#8⟩ 0x0B0C#16 0x0D0E#16 15#8 true false 0x1112#16 0x1314#16) := by
  decide +kernel

/-- V36: a reserved bit of `ctl` (R124). -/
theorem test_decode_refuses_ctl :
    decode (bytes [0x43, 1, 2, 3, 4, 5, 6, 7, 8, 9, 10, 0, 80, 0xC0, 0, 0x18, 4, 0, 0, 0, 0]) = .error (.reservedCtl 4#8) := by
  decide +kernel

/-- V50: a reserved opcode, a wrong length and the empty string are illegal (R124). -/
theorem test_decode_refuses :
    decode (bytes [0x13, 0, 0, 0, 0]) = .error (.reservedOpcode 0x13#8) ∧ decode (bytes [0x20, 0]) = .error (.wrongLength .clsArp) ∧
      decode (bytes [0x60, 0]) = .error (.wrongLength .dispatch) ∧ decode (bytes [0x44, 0, 0, 0, 2, 0x4F]) = .error (.wrongLength .fill) ∧
      decode [] = .error .emptyCommand := by
  decide +kernel

/-- The host's numbering: the first byte of a command is bits 7 to 0. -/
theorem test_decodeTableWord :
    decodeTableWord 40 0x1400_0E00_10 = some (.cksumIp 14#16 20#16) ∧ decodeTableWord 8 0x44 = some (.fill 0#16 []) := by
  decide +kernel

/-! ### One step of every operation -/

/-- The next state of an outcome. -/
def next? : Host.Outcome State Fault Refusal → Option State
  | .next t => some t
  | .fault _ => none
  | .refused _ => none

/-- An initialised engine with nothing received. -/
def node : State := { State.reset with mac := nodeMac, ip := nodeIp, port := 80#8, inited := true }

/-- An initialised engine with these bytes in `BUF` from offset `a`. -/
def holdingAt (a : Nat) (f : List Byte) : State := { node with buf := Memory.wrBytes [] a f, rxlen := u16 f.length }

/-- An initialised engine with a frame received. -/
def holding (f : List Byte) : State := holdingAt 0 f

/-- An initialised engine with a frame waiting at the link layer. -/
def arriving (f : List Byte) : State := { node with rx := [f] }

/-- `F_ARPREQ`. -/
def arpRequest : List Byte :=
  bytes [0xFF, 0xFF, 0xFF, 0xFF, 0xFF, 0xFF, 0x02, 0x00, 0x00, 0x00, 0x00, 0x02, 0x08, 0x06, 0x00, 0x01,
    0x08, 0x00, 0x06, 0x04, 0x00, 0x01, 0x02, 0x00, 0x00, 0x00, 0x00, 0x02, 0xC0, 0xA8, 0x00, 0x01,
    0x00, 0x00, 0x00, 0x00, 0x00, 0x00, 0xC0, 0xA8, 0x00, 0x0A]

/-- `F_ARPRPL`. -/
def arpReply : List Byte :=
  bytes [0x02, 0x00, 0x00, 0x00, 0x00, 0x01, 0x02, 0x00, 0x00, 0x00, 0x00, 0x02, 0x08, 0x06, 0x00, 0x01,
    0x08, 0x00, 0x06, 0x04, 0x00, 0x02, 0x02, 0x00, 0x00, 0x00, 0x00, 0x02, 0xC0, 0xA8, 0x00, 0x01,
    0x02, 0x00, 0x00, 0x00, 0x00, 0x01, 0xC0, 0xA8, 0x00, 0x0A]

/-- `F_ICMP`. -/
def echoRequest : List Byte :=
  bytes [0x02, 0x00, 0x00, 0x00, 0x00, 0x01, 0x02, 0x00, 0x00, 0x00, 0x00, 0x02, 0x08, 0x00, 0x45, 0x00,
    0x00, 0x20, 0x12, 0x34, 0x40, 0x00, 0x40, 0x01, 0xA7, 0x4D, 0xC0, 0xA8, 0x00, 0x01, 0xC0, 0xA8,
    0x00, 0x0A, 0x08, 0x00, 0x4D, 0x5A, 0x00, 0x01, 0x00, 0x01, 0x61, 0x62, 0x49, 0x41]

/-- `F_SYN`. -/
def synFrame : List Byte :=
  bytes [0x02, 0x00, 0x00, 0x00, 0x00, 0x01, 0x02, 0x00, 0x00, 0x00, 0x00, 0x02, 0x08, 0x00, 0x45, 0x00,
    0x00, 0x2C, 0x1C, 0x46, 0x40, 0x00, 0x40, 0x06, 0x9D, 0x2A, 0xC0, 0xA8, 0x00, 0x01, 0xC0, 0xA8,
    0x00, 0x0A, 0xC3, 0x50, 0x00, 0x50, 0x11, 0x22, 0x33, 0x44, 0x00, 0x00, 0x00, 0x00, 0x60, 0x02,
    0xFA, 0xF0, 0x13, 0xD3, 0x00, 0x00, 0x02, 0x04, 0x05, 0xB4]

/-- `F_DATA`. -/
def dataFrame : List Byte :=
  bytes [0x02, 0x00, 0x00, 0x00, 0x00, 0x01, 0x02, 0x00, 0x00, 0x00, 0x00, 0x02, 0x08, 0x00, 0x45, 0x00,
    0x00, 0x3A, 0x1C, 0x47, 0x40, 0x00, 0x40, 0x06, 0x9D, 0x1B, 0xC0, 0xA8, 0x00, 0x01, 0xC0, 0xA8,
    0x00, 0x0A, 0xC3, 0x50, 0x00, 0x50, 0x11, 0x22, 0x33, 0x45, 0x00, 0x00, 0x0A, 0x01, 0x50, 0x18,
    0xFA, 0xF0, 0x42, 0xC5, 0x00, 0x00, 0x47, 0x45, 0x54, 0x20, 0x2F, 0x20, 0x48, 0x54, 0x54, 0x50,
    0x2F, 0x31, 0x2E, 0x30, 0x0D, 0x0A, 0x0D, 0x0A]

/-- `F_FIN`. -/
def finFrame : List Byte :=
  bytes [0x02, 0x00, 0x00, 0x00, 0x00, 0x01, 0x02, 0x00, 0x00, 0x00, 0x00, 0x02, 0x08, 0x00, 0x45, 0x00,
    0x00, 0x28, 0x1C, 0x48, 0x40, 0x00, 0x40, 0x06, 0x9D, 0x2C, 0xC0, 0xA8, 0x00, 0x01, 0xC0, 0xA8,
    0x00, 0x0A, 0xC3, 0x50, 0x00, 0x50, 0x11, 0x22, 0x33, 0x57, 0x00, 0x00, 0x0A, 0x17, 0x50, 0x11,
    0xFA, 0xF0, 0x21, 0x56, 0x00, 0x00]

/-- `F_ACK`. -/
def bareAck : List Byte :=
  bytes [0x02, 0x00, 0x00, 0x00, 0x00, 0x01, 0x02, 0x00, 0x00, 0x00, 0x00, 0x02, 0x08, 0x00, 0x45, 0x00,
    0x00, 0x28, 0x1C, 0x49, 0x40, 0x00, 0x40, 0x06, 0x9D, 0x2B, 0xC0, 0xA8, 0x00, 0x01, 0xC0, 0xA8,
    0x00, 0x0A, 0xC3, 0x50, 0x00, 0x50, 0x11, 0x22, 0x33, 0x45, 0x00, 0x00, 0x0A, 0x01, 0x50, 0x10,
    0xFA, 0xF0, 0x21, 0x7F, 0x00, 0x00]

/-- `F_UDP`. -/
def udpRequest : List Byte :=
  bytes [0x02, 0x00, 0x00, 0x00, 0x00, 0x01, 0x02, 0x00, 0x00, 0x00, 0x00, 0x02, 0x08, 0x00, 0x45, 0x00,
    0x00, 0x20, 0x00, 0x42, 0x40, 0x00, 0x40, 0x11, 0xB9, 0x2F, 0xC0, 0xA8, 0x00, 0x01, 0xC0, 0xA8,
    0x00, 0x0A, 0x13, 0x88, 0x00, 0x07, 0x00, 0x0C, 0x8C, 0x1A, 0x70, 0x69, 0x6E, 0x67]

/-- P1 row 1, through `step`: the identity is written, the response is `00 00 00`. -/
theorem test_init :
    (next? (step (State.reset.present (bytes [0x00, 0x02, 0x00, 0x00, 0x00, 0x00, 0x01, 0xC0, 0xA8, 0x00, 0x0A, 0x50])))).map 
        (fun t => (t.mac, t.ip, t.port, t.inited, t.resps)) =
      some (nodeMac, nodeIp, 80#8, true, [[0#8, 0#8, 0#8]]) := by
  decide +kernel

/-- V50: `INIT` twice raises `AlreadyInitialised`. -/
theorem test_init_twice :
    (next? (exec (.init peerMac peerIp 81#8) node)).map (fun t => (t.fault, t.mac)) = some (3#8, nodeMac) := by
  decide +kernel

/-- V1a. -/
theorem test_cksumIp :
    (next? (exec (.cksumIp 14#16 20#16) (holdingAt 14 (bytes [0x45, 0x00, 0x00, 0x73, 0x00, 0x00, 0x40, 0x00, 0x40, 0x11, 0x00, 0x00, 0xC0, 0xA8, 0x00, 0x01,
            0xC0, 0xA8, 0x00, 0xC7])))).map (·.res) = some 0xB861#16 := by
  decide +kernel

/-- V7: two folds. -/
theorem test_cksumIp_folds :
    (next? (exec (.cksumIp 14#16 6#16) (holdingAt 14 (bytes [0xFF, 0xFF, 0xFF, 0xFF, 0x00, 0x01])))).map (·.res) = some 0xFFFE#16 := by
  decide +kernel

/-- V12 row 3: an odd range, injection 17 + 11. -/
theorem test_cksumUdp :
    (next? (exec (.cksumUdp 26#16 19#16) (holding udpRequest))).map (·.res) = some 0x0068#16 := by
  decide +kernel

/-- V14: `BadOperand` before `BufferBounds`. -/
theorem test_cksumUdp_short :
    (next? (exec (.cksumUdp 300#16 7#16) node)).map (·.fault) = some 5#8 := by
  decide +kernel

/-- V13 row 1: the segment verifies. -/
theorem test_cksumTcp :
    (next? (exec (.cksumTcp 26#16 46#16) (holding dataFrame))).map (·.res) = some 0#16 := by
  decide +kernel

/-- V13 row 2: an odd range. -/
theorem test_cksumTcp_odd :
    (next? (exec (.cksumTcp 26#16 45#16) (holding dataFrame))).map (·.res) = some 0x000B#16 := by
  decide +kernel

/-- V15 row 3: length 41 is accepted. -/
theorem test_clsArp :
    (next? (exec (.clsArp 41#16) (holding arpRequest))).map (·.res) = some 1#16 := by
  decide +kernel

/-- V15 row 4: length 40 is not. -/
theorem test_clsArp_short :
    (next? (exec (.clsArp 40#16) (holding arpRequest))).map (·.res) = some 0#16 := by
  decide +kernel

/-- V16 row 2: length 42 is accepted. -/
theorem test_clsIp4 :
    (next? (exec (.clsIp4 42#16) (holding echoRequest))).map (·.res) = some 1#16 := by
  decide +kernel

/-- V16: `BUF[14] = 0x46` is rejected. -/
theorem test_clsIp4_options :
    (next? (exec (.clsIp4 46#16) (holding (echoRequest.set 14 0x46#8)))).map (·.res) = some 0#16 := by
  decide +kernel

/-- V17: the peer's reply. -/
theorem test_clsArprply :
    (next? (exec (.clsArprply) (holding arpReply))).map (·.res) = some 1#16 := by
  decide +kernel

/-- V17: both opcode bytes are compared. -/
theorem test_clsArprply_opcode :
    (next? (exec (.clsArprply) (holding (arpReply.set 20 0x01#8)))).map (·.res) = some 0#16 := by
  decide +kernel

/-- V20. -/
theorem test_arpReply :
    (next? (exec (.arpReply) (holding arpRequest))).map (fun t => (t.res, t.txlog)) =
      some (42#16, [bytes [0x02, 0x00, 0x00, 0x00, 0x00, 0x02, 0x02, 0x00, 0x00, 0x00, 0x00, 0x01, 0x08, 0x06, 0x00, 0x01,
              0x08, 0x00, 0x06, 0x04, 0x00, 0x02, 0x02, 0x00, 0x00, 0x00, 0x00, 0x01, 0xC0, 0xA8, 0x00, 0x0A,
              0x02, 0x00, 0x00, 0x00, 0x00, 0x02, 0xC0, 0xA8, 0x00, 0x01]]) := by
  decide +kernel

/-- P4, `TXLOG` frame 1; nothing of the old buffer shows. -/
theorem test_arpReq :
    (next? (exec (.arpReq broadcast peerIp) node)).map (fun t => (t.res, t.txlog)) =
      some (42#16, [bytes [0xFF, 0xFF, 0xFF, 0xFF, 0xFF, 0xFF, 0x02, 0x00, 0x00, 0x00, 0x00, 0x01, 0x08, 0x06, 0x00, 0x01,
              0x08, 0x00, 0x06, 0x04, 0x00, 0x01, 0x02, 0x00, 0x00, 0x00, 0x00, 0x01, 0xC0, 0xA8, 0x00, 0x0A,
              0x00, 0x00, 0x00, 0x00, 0x00, 0x00, 0xC0, 0xA8, 0x00, 0x01]]) := by
  decide +kernel

/-- X5, P2 frame 1. -/
theorem test_icmpReply :
    (next? (exec (.icmpReply 46#16) (holding echoRequest))).map (fun t => (t.res, t.txlog)) =
      some (46#16, [bytes [0x02, 0x00, 0x00, 0x00, 0x00, 0x02, 0x02, 0x00, 0x00, 0x00, 0x00, 0x01, 0x08, 0x00, 0x45, 0x00,
              0x00, 0x20, 0x12, 0x34, 0x40, 0x00, 0x40, 0x01, 0xA7, 0x4D, 0xC0, 0xA8, 0x00, 0x0A, 0xC0, 0xA8,
              0x00, 0x01, 0x00, 0x00, 0x55, 0x5A, 0x00, 0x01, 0x00, 0x01, 0x61, 0x62, 0x49, 0x41]]) := by
  decide +kernel

/-- V21: the corner where a carry is lost. -/
theorem test_icmpReply_corner :
    (next? (exec (.icmpReply 46#16) (holding ((echoRequest.set 36 0xF8#8).set 37 0xFF#8)))).map (fun t => t.buf.slice 36 2) =
      some [0x00#8, 0x00#8] := by
  decide +kernel

/-- V22. -/
theorem test_udpReply :
    (next? (exec (.udpReply 7#16 (bytes [0x70, 0x6F, 0x6E, 0x67, 0x21])) (holding udpRequest))).map (fun t => (t.res, t.txlog)) =
      some (47#16, [bytes [0x02, 0x00, 0x00, 0x00, 0x00, 0x02, 0x02, 0x00, 0x00, 0x00, 0x00, 0x01, 0x08, 0x00, 0x45, 0x00,
              0x00, 0x21, 0x00, 0x42, 0x40, 0x00, 0x40, 0x11, 0xB9, 0x2E, 0xC0, 0xA8, 0x00, 0x0A, 0xC0, 0xA8,
              0x00, 0x01, 0x00, 0x07, 0x13, 0x88, 0x00, 0x0D, 0x6B, 0x12, 0x70, 0x6F, 0x6E, 0x67, 0x21]]) := by
  decide +kernel

/-- P3 frame 1; V30: `SEQ 0x0A -> 0x0C`. -/
theorem test_tcpSynack :
    (next? (exec (.tcpSynack) (holding synFrame))).map (fun t => (t.seq, t.txlog)) =
      some (0x0C#8, [bytes [0x02, 0x00, 0x00, 0x00, 0x00, 0x02, 0x02, 0x00, 0x00, 0x00, 0x00, 0x01, 0x08, 0x00, 0x45, 0x00,
              0x00, 0x2C, 0x1C, 0x46, 0x40, 0x00, 0x40, 0x06, 0x9D, 0x2A, 0xC0, 0xA8, 0x00, 0x0A, 0xC0, 0xA8,
              0x00, 0x01, 0x00, 0x50, 0xC3, 0x50, 0x00, 0x00, 0x0A, 0x00, 0x11, 0x22, 0x33, 0x45, 0x60, 0x12,
              0xFA, 0xF0, 0x09, 0xF6, 0x00, 0x00, 0x02, 0x04, 0x05, 0x80]]) := by
  decide +kernel

/-- V30: an acknowledgment number wraps. -/
theorem test_tcpSynack_wrap :
    (next? (exec (.tcpSynack) { node with buf := (holding synFrame).buf.wr32 38 0xFFFFFFFF#32 })).map (fun t => t.buf.slice 42 4) =
      some [0x00#8, 0x00#8, 0x00#8, 0x00#8] := by
  decide +kernel

/-- V32 row 3. -/
theorem test_tcpAck :
    (next? (exec (.tcpAck) { holding finFrame with sesv := true, hlen := 20#16, dlen := 0#16 })).map (fun t => (t.res, t.txlog)) =
      some (54#16, [bytes [0x02, 0x00, 0x00, 0x00, 0x00, 0x02, 0x02, 0x00, 0x00, 0x00, 0x00, 0x01, 0x08, 0x00, 0x45, 0x00,
              0x00, 0x28, 0x1C, 0x48, 0x40, 0x00, 0x40, 0x06, 0x9D, 0x2C, 0xC0, 0xA8, 0x00, 0x0A, 0xC0, 0xA8,
              0x00, 0x01, 0x00, 0x50, 0xC3, 0x50, 0x00, 0x00, 0x0A, 0x17, 0x11, 0x22, 0x33, 0x58, 0x50, 0x10,
              0xFA, 0xF0, 0x21, 0x56, 0x00, 0x00]]) := by
  decide +kernel

/-- V32 row 5: no session scalars for this frame. -/
theorem test_tcpAck_stale :
    (next? (exec (.tcpAck) (holding bareAck))).map (fun t => (t.fault, t.txlog)) = some (6#8, []) := by
  decide +kernel

/-- P3 frame 3: the response on the bare acknowledgment of frame 2. -/
theorem test_tcpAckdata :
    (next? (exec (.tcpAckdata 21#16) (holding (bytes [0x02, 0x00, 0x00, 0x00, 0x00, 0x02, 0x02, 0x00, 0x00, 0x00, 0x00, 0x01, 0x08, 0x00, 0x45, 0x00,
            0x00, 0x28, 0x1C, 0x47, 0x40, 0x00, 0x40, 0x06, 0x9D, 0x2D, 0xC0, 0xA8, 0x00, 0x0A, 0xC0, 0xA8,
            0x00, 0x01, 0x00, 0x50, 0xC3, 0x50, 0x00, 0x00, 0x0A, 0x01, 0x11, 0x22, 0x33, 0x57, 0x50, 0x10,
            0xFA, 0xF0, 0x21, 0x6D, 0x00, 0x00, 0x48, 0x54, 0x54, 0x50, 0x2F, 0x31, 0x2E, 0x30, 0x20, 0x32,
            0x30, 0x30, 0x20, 0x4F, 0x4B, 0x0D, 0x0A, 0x0D, 0x0A, 0x68, 0x69])))).map (·.txlog) =
      some [bytes [0x02, 0x00, 0x00, 0x00, 0x00, 0x02, 0x02, 0x00, 0x00, 0x00, 0x00, 0x01, 0x08, 0x00, 0x45, 0x00,
          0x00, 0x3D, 0x1C, 0x47, 0x40, 0x00, 0x40, 0x06, 0x9D, 0x18, 0xC0, 0xA8, 0x00, 0x0A, 0xC0, 0xA8,
          0x00, 0x01, 0x00, 0x50, 0xC3, 0x50, 0x00, 0x00, 0x0A, 0x01, 0x11, 0x22, 0x33, 0x57, 0x50, 0x19,
          0xFA, 0xF0, 0xEE, 0x14, 0x00, 0x00, 0x48, 0x54, 0x54, 0x50, 0x2F, 0x31, 0x2E, 0x30, 0x20, 0x32,
          0x30, 0x30, 0x20, 0x4F, 0x4B, 0x0D, 0x0A, 0x0D, 0x0A, 0x68, 0x69]] := by
  decide +kernel

/-- V35, with the counters it advances. -/
theorem test_tcpClient :
    (next? (exec (.tcpClient peerMac peerIp 80#16 0xC000#16 0x02#8 true true 0#16 0#16) node)).map (fun t => (t.ipid, t.seq, t.txlog)) =
      some (2#16, 0x0C#8, [bytes [0x02, 0x00, 0x00, 0x00, 0x00, 0x02, 0x02, 0x00, 0x00, 0x00, 0x00, 0x01, 0x08, 0x00, 0x45, 0x00,
              0x00, 0x2C, 0x00, 0x01, 0x40, 0x00, 0x40, 0x06, 0xB9, 0x6F, 0xC0, 0xA8, 0x00, 0x0A, 0xC0, 0xA8,
              0x00, 0x01, 0xC0, 0x00, 0x00, 0x50, 0x00, 0x00, 0x0A, 0x00, 0x00, 0x00, 0x00, 0x00, 0x60, 0x02,
              0x00, 0xC5, 0x4B, 0xE9, 0x00, 0x00, 0x02, 0x04, 0x05, 0x80]]) := by
  decide +kernel

/-- V36: `54 + 4 + 194 > 251`. -/
theorem test_tcpClient_bounds :
    (next? (exec (.tcpClient peerMac peerIp 80#16 0xC000#16 0x18#8 true false 0#16 194#16) node)).map (fun t => (t.fault, t.ipid, t.txlog)) =
      some (4#8, 1#16, []) := by
  decide +kernel

/-- V34 row 4: the last legal byte. -/
theorem test_fill :
    (next? (exec (.fill 196#16 [0x7A#8]) node)).map (fun t => (t.res, t.buf)) = some (0x00C5#16, [(250, 0x7A#8)]) := by
  decide +kernel

/-- V34 row 5. -/
theorem test_fill_bounds :
    (next? (exec (.fill 197#16 [0x7A#8]) node)).map (fun t => (t.fault, t.buf)) = some (4#8, []) := by
  decide +kernel

/-- V40, first row. -/
theorem test_sesDerive :
    (next? (exec (.sesDerive) (holding dataFrame))).map (fun t => (t.hlen, t.dlen, t.sesv, t.res)) = some (20#16, 18#16, true, 18#16) := by
  decide +kernel

/-- V40: `T = 32768` reads as negative. -/
theorem test_sesDerive_negative :
    (next? (exec (.sesDerive) (holding ((dataFrame.set 16 0x80#8).set 17 0x28#8)))).map (fun t => (t.hlen, t.dlen)) = some (20#16, 0#16) := by
  decide +kernel

/-- V41 row 3. -/
theorem test_sesPoff :
    (next? (exec (.sesPoff) { holding dataFrame with sesv := true, hlen := 20#16, dlen := 18#16 })).map (·.res) = some 54#16 := by
  decide +kernel

/-- V40: no payload, sentinel 0. -/
theorem test_sesPoff_sentinel :
    (next? (exec (.sesPoff) { node with sesv := true, hlen := 24#16 })).map (·.res) = some 0#16 := by
  decide +kernel

/-- P3 frame 4 and V60 row 15: rule 6. -/
theorem test_dispatch_fin :
    (next? (exec (.dispatch) (arriving finFrame))).map (fun t => (t.res, t.txlog)) =
      some (6#16, [bytes [0x02, 0x00, 0x00, 0x00, 0x00, 0x02, 0x02, 0x00, 0x00, 0x00, 0x00, 0x01, 0x08, 0x00, 0x45, 0x00,
              0x00, 0x28, 0x1C, 0x48, 0x40, 0x00, 0x40, 0x06, 0x9D, 0x2C, 0xC0, 0xA8, 0x00, 0x0A, 0xC0, 0xA8,
              0x00, 0x01, 0x00, 0x50, 0xC3, 0x50, 0x00, 0x00, 0x0A, 0x17, 0x11, 0x22, 0x33, 0x58, 0x50, 0x10,
              0xFA, 0xF0, 0x21, 0x56, 0x00, 0x00]]) := by
  decide +kernel

/-- The handler's response of V60 and P3. -/
def hello : List Byte :=
  bytes [0x48, 0x54, 0x54, 0x50, 0x2F, 0x31, 0x2E, 0x30, 0x20, 0x32, 0x30, 0x30, 0x20, 0x4F, 0x4B, 0x0D,
    0x0A, 0x0D, 0x0A, 0x68, 0x69]

/-- The request in `F_DATA`. -/
def request : List Byte := dataFrame.drop 54

/-- P3 frames 2 and 3 and V60 row 17: rule 8. -/
theorem test_dispatch_data :
    (next? (exec (.dispatch) { arriving dataFrame with handler := [(request, hello)] })).map (fun t => (t.res, t.txlog, t.reqlog)) =
      some (8#16, [bytes [0x02, 0x00, 0x00, 0x00, 0x00, 0x02, 0x02, 0x00, 0x00, 0x00, 0x00, 0x01, 0x08, 0x00, 0x45, 0x00,
          0x00, 0x28, 0x1C, 0x47, 0x40, 0x00, 0x40, 0x06, 0x9D, 0x2D, 0xC0, 0xA8, 0x00, 0x0A, 0xC0, 0xA8,
          0x00, 0x01, 0x00, 0x50, 0xC3, 0x50, 0x00, 0x00, 0x0A, 0x01, 0x11, 0x22, 0x33, 0x57, 0x50, 0x10,
          0xFA, 0xF0, 0x21, 0x6D, 0x00, 0x00],
        bytes [0x02, 0x00, 0x00, 0x00, 0x00, 0x02, 0x02, 0x00, 0x00, 0x00, 0x00, 0x01, 0x08, 0x00, 0x45, 0x00,
          0x00, 0x3D, 0x1C, 0x47, 0x40, 0x00, 0x40, 0x06, 0x9D, 0x18, 0xC0, 0xA8, 0x00, 0x0A, 0xC0, 0xA8,
          0x00, 0x01, 0x00, 0x50, 0xC3, 0x50, 0x00, 0x00, 0x0A, 0x01, 0x11, 0x22, 0x33, 0x57, 0x50, 0x19,
          0xFA, 0xF0, 0xEE, 0x14, 0x00, 0x00, 0x48, 0x54, 0x54, 0x50, 0x2F, 0x31, 0x2E, 0x30, 0x20, 0x32,
          0x30, 0x30, 0x20, 0x4F, 0x4B, 0x0D, 0x0A, 0x0D, 0x0A, 0x68, 0x69]], [request]) := by
  decide +kernel

/-- V41 row 1: a frame of 72 bytes. -/
theorem test_recv :
    (next? (exec (.recv) { arriving dataFrame with sesv := true })).map (fun t => (t.rxlen, t.sesv, t.buf.slice 0 72)) =
      some (72#16, false, dataFrame) := by
  decide +kernel

/-- R305: nothing waiting. -/
theorem test_recv_none :
    (next? (exec (.recv) node)).map (fun t => (t.res, t.rxlen, t.buf)) = some (0#16, 0#16, []) := by
  decide +kernel

/-- V51 row 2: a faulted engine takes no frame. -/
theorem test_faulted_refuses :
    (next? (step ({ arriving arpRequest with fault := 5#8 }.present [0x60#8]))).map (fun t => (t.resps, t.rx)) =
      some ([[5#8, 0#8, 0#8]], [arpRequest]) := by
  decide +kernel

/-- V50: `DISPATCH` before `INIT`. -/
theorem test_not_initialised :
    (next? (step (State.reset.withFetchWord 8 0x60))).map (·.resps) = some [[2#8, 0#8, 0#8]] := by
  decide +kernel

/-- P4 row 2: `ARP.WHOHAS tip=192.168.0.1` assembles to one command. -/
theorem test_whohas :
    (Pseudo.expand (.arpWhohas peerIp)).map encode = [bytes [0x31, 0xFF, 0xFF, 0xFF, 0xFF, 0xFF, 0xFF, 0xC0, 0xA8, 0x00, 0x01]] := by
  decide +kernel

/-! ### Witnesses: a state and operands that meet the hypotheses of each statement, at boundary values -/

/-- `DecodeInvertsEncode`. -/
theorem witness_encode :
    (Instr.udpReply 7#16 (bytes [0x70, 0x6F])).wellFormed = true := by
  decide +kernel

/-- `EncodeInvertsDecode`. -/
theorem witness_decode :
    decode (bytes [0x33, 0, 7, 0, 2, 0x70, 0x6F]) = .ok (.udpReply 7#16 (bytes [0x70, 0x6F])) := by
  decide +kernel

/-- `StepRunsDecodedCommand`. -/
theorem witness_step :
    ({ node with cmds := [[0x61#8], [0x60#8]] }).cmds = [0x61#8] :: [[0x60#8]] ∧ decode [0x61#8] = .ok .recv := by
  decide +kernel

/-- `IllegalCommandRaises`. -/
theorem witness_illegal :
    ({ node with cmds := [[0x62#8], [0x60#8]] }).cmds = [0x62#8] :: [[0x60#8]] ∧ node.fault = 0#8 ∧
      commandLength 0x62 0 = none ∧ commandLength 0x60 0 = some 1 := by
  decide +kernel

/-- `LegalCommandsExactly`, `IllegalCommandRaises`: legal and illegal commands at the boundary of each condition. -/
theorem witness_legal :
    Legal [0x61#8] ∧ ¬Legal [0x62#8] ∧ ¬Legal [0x61#8, 0#8] ∧ ¬Legal [] ∧ Legal [0x44#8, 0#8, 0#8, 0#8, 1#8, 0x21#8] ∧
      Legal (0x43#8 :: (List.replicate 15 0#8 ++ [3#8, 0#8, 0#8, 0#8, 0#8])) ∧
      ¬Legal (0x43#8 :: (List.replicate 15 0#8 ++ [4#8, 0#8, 0#8, 0#8, 0#8])) := by
  refine ⟨?_, ?_, ?_, fun h => h, ?_, ?_, ?_⟩ <;> unfold Legal <;> decide

/-- `IdleEngineHoldsState`. -/
theorem witness_idle :
    node.cmds = [] := by
  decide +kernel

/-- `EveryCommandIsAnswered`, `StepIsBounded`: a step that sends. -/
theorem witness_answered :
    ({ arriving arpRequest with cmds := [[0x60#8]] }).cmds = [0x60#8] :: [] ∧
      ∃ t, step { arriving arpRequest with cmds := [[0x60#8]] } = .next t ∧ t.txlog.length = 1 := ⟨rfl, _, rfl, by decide +kernel⟩

/-- `FaultedEngineRefuses`, `FirstFaultStays`. -/
theorem witness_faulted :
    ({ node with fault := 5#8, cmds := [[0x60#8]] }).fault ≠ 0#8 ∧ ({ node with fault := 5#8, cmds := [[0x60#8]] }).cmds = [0x60#8] :: [] ∧
      ∃ t, step { node with fault := 5#8, cmds := [[0x60#8]] } = .next t := ⟨by decide, rfl, _, rfl⟩

/-- `FirstFaultStays`, the other clause: a step from `FAULT = 0`. -/
theorem witness_first_fault :
    ({ node with cmds := [[0x41#8]] }).fault = 0#8 ∧ ∃ t, step { node with cmds := [[0x41#8]] } = .next t ∧ t.fault = 6#8 := ⟨rfl, _, rfl, by decide +kernel⟩

/-- `InitialisationGuards`, each clause. -/
theorem witness_guards :
    (State.reset.fault = 0#8 ∧ isInit .recv = false ∧ State.reset.inited = false) ∧
      (State.reset.fault = 0#8 ∧ isInit (.init peerMac peerIp 81#8) = true ∧ State.reset.inited = false) ∧
      (node.fault = 0#8 ∧ isInit (.init peerMac peerIp 81#8) = true ∧ node.inited = true) := by
  decide +kernel

/-- `FaultingOperationChangesOnlyFault`. -/
theorem witness_faulting :
    Instr.tcpAck ≠ .dispatch ∧ node.fault = 0#8 ∧ exec .tcpAck node = .next { node with fault := 6#8 } ∧ ({ node with fault := 6#8 }).fault ≠ 0#8 := ⟨by decide, rfl, rfl, by decide⟩

/-- A state that meets the invariant with something in every part of it. -/
def busy : State :=
  { holding dataFrame with hlen := 20#16, dlen := 18#16, sesv := true, txlog := [dataFrame], resps := [[0#8, 0#8, 18#8]], cmds := [[0x41#8]] }

/-- `InvariantKeptByStep`. -/
theorem witness_invariant : busy.Inv ∧ ∃ t, step busy = .next t :=
  ⟨⟨by decide +kernel, by unfold Memory.inside; decide +kernel, by unfold State.faultLegal; decide +kernel,
    by unfold State.sessionLegal; decide +kernel, by unfold State.sumLegal; decide +kernel, by unfold State.rxlenLegal; decide +kernel,
    by unfold State.framesFit; decide +kernel, by unfold State.responsesLegal; decide +kernel⟩, _, rfl⟩

/-- `InvariantKeptByStep`: the invariant's bounds are reached. -/
theorem witness_invariant_bounds :
    ({ node with hlen := 60#16, dlen := 32767#16, fault := 6#8, sum := 2 ^ 32 - 1, rxlen := 251#16 }).Inv :=
  ⟨.nil, by unfold Memory.inside; decide +kernel, by unfold State.faultLegal; decide +kernel,
    by unfold State.sessionLegal; decide +kernel, by unfold State.sumLegal; decide +kernel, by unfold State.rxlenLegal; decide +kernel,
    by unfold State.framesFit; decide +kernel, by unfold State.responsesLegal; decide +kernel⟩

/-- `UnspecifiedRegistersNeverRead`: two states after reset that differ in all six registers. -/
theorem witness_agree :
    AgreeWhereRead State.reset { State.reset with mac := peerMac, ip := peerIp, port := 9#8, hlen := 4#16, dlen := 7#16, sum := 5 } :=
  ⟨rfl, by decide, by decide⟩

/-- `RxlenBoundsNoAccess`. -/
theorem witness_rxlen :
    receives (.icmpReply 251#16) = false := by
  decide +kernel

/-- `IdentityImmutable`. -/
theorem witness_identity :
    ({ arriving synFrame with cmds := [[0x60#8]] }).inited = true ∧ ∃ t, step { arriving synFrame with cmds := [[0x60#8]] } = .next t := ⟨rfl, _, rfl⟩

/-- `CountersAdvanceExactly`, `RegisterWriteSets`: an operation that completes and advances both counters. -/
theorem witness_counters :
    ∃ t, exec (.tcpClient peerMac peerIp 80#16 0xC000#16 0x02#8 true true 0#16 0#16) node = .next t ∧ t.ipid = 2#16 ∧ t.seq = 0x0C#8 := ⟨_, rfl, by decide +kernel, by decide +kernel⟩

/-- `CountersWrap`, both clauses, at the largest data length that fits. -/
theorem witness_wrap :
    Ready node ∧ node.cfg.seqStep = 2#8 ∧ 54 + (if true then 4 else 0) + (193#16).toNat ≤ node.cap := by
  decide +kernel

/-- `InitWritesIdentity`, both clauses. -/
theorem witness_init :
    (State.reset.fault = 0#8 ∧ State.reset.inited = false) ∧ node.fault = 0#8 ∧ node.inited = true := by
  decide +kernel

/-- `CountersAdvanceExactly`: an operation that faults. -/
theorem witness_counters_fault :
    exec (.tcpAck) node = .next { node with fault := 6#8 } ∧ ({ node with fault := 6#8 }).fault ≠ 0#8 := ⟨rfl, by decide⟩

/-- `RecvTakesOneFrame`: a frame of exactly `CAP` bytes. -/
theorem witness_recv :
    Ready (arriving (List.replicate 251 0x5A#8)) ∧
      (arriving (List.replicate 251 0x5A#8)).rx = List.replicate 251 0x5A#8 :: [] ∧
      (List.replicate 251 0x5A#8).length ≤ (arriving (List.replicate 251 0x5A#8)).cap := by
  decide +kernel

/-- `RecvBeyondStream`: an exhausted stream, and a frame one byte longer than `CAP`. -/
theorem witness_recv_beyond :
    Ready node ∧ node.rx = [] ∧ Ready (arriving (List.replicate 252 0x5A#8)) ∧
      (arriving (List.replicate 252 0x5A#8)).rx = List.replicate 252 0x5A#8 :: [] ∧
      (arriving (List.replicate 252 0x5A#8)).cap < (List.replicate 252 0x5A#8).length := by
  decide +kernel

/-- `ChecksumCommands`, each clause at its boundary (V14). -/
theorem witness_checksum :
    Ready node ∧ 249 + 2 ≤ node.cap ∧ node.cap < 250 + 2 ∧ (8#16).toNat = 8 ∧ (7#16).toNat < 8 ∧ (0#16).toNat = 0 := by
  decide +kernel

/-- `RunningSumNeverWraps`, `ChecksumExtremes`: the longest range. -/
theorem witness_longest :
    (List.replicate 65535 0xFF#8).length ≤ 65535 := by simp only [List.length_replicate]; decide

/-- `EndAroundCarryEquivalence`: the terms in another order. -/
theorem witness_order :
    (bytes [1, 2, 3, 4]).length ≤ 65535 ∧ [0x0304, 0x0102].Perm (terms {} .ip (bytes [1, 2, 3, 4])) := ⟨by decide, List.Perm.swap _ _ _⟩

/-- `ChecksumSelfVerification`: the smallest UDP range, the field at its end. -/
theorem witness_verify :
    Ready node ∧ (Kind.udp ≠ .ip → 8 ≤ (8#16).toNat) ∧ (243#16).toNat + (8#16).toNat ≤ node.cap ∧ 6 % 2 = 0 ∧ 6 + 2 ≤ (8#16).toNat := by
  decide +kernel

/-- `ClassifierAnswers` and the first clause of `ClassifierRelations`. -/
theorem witness_classifier :
    Ready (holding echoRequest) ∧ Ip4ForMe (holding echoRequest) 42 ∧ ¬Ip4ForMe (holding echoRequest) 41 ∧
      ArpForMe (holding arpReply) 41 ∧ ¬ArpForMe (holding arpReply) 40 ∧ ArpReplyIsMine (holding arpReply) := by
  decide +kernel

/-- `ClassifierRelations`: `CLS.ARPRPLY` and `CLS.ARP` answer 1. -/
theorem witness_relations :
    ∃ t u v, exec (.clsArp 41#16) (holding arpReply) = .next t ∧ exec (.clsIp4 42#16) (holding arpReply) = .next u ∧
      exec .clsArprply (holding arpReply) = .next v ∧ v.res = 1#16 ∧ (holding arpReply).cfg.arpMin ≤ (41#16).toNat := ⟨_, _, _, rfl, rfl, rfl, by decide +kernel, by decide +kernel⟩

/-- `ArpReplySendsReply`, `ArpRequestSendsRequest`, `SynAckSendsHandshake`. -/
theorem witness_ready :
    Ready node ∧ Ready (holding arpRequest) ∧ Ready (holding synFrame) ∧ Ready (holding dataFrame) := by
  decide +kernel

/-- `SesDeriveComputes`: an instance of each reading, with 18 bytes of payload. -/
theorem witness_derive :
    let s := holding dataFrame
    let z := { s with cfg := { s.cfg with deriveResult := .bytesSent } }
    (Ready s ∧ s.cfg.deriveResult = .dataLength) ∧ (Ready z ∧ z.cfg.deriveResult = .bytesSent) ∧
      (next? (exec .sesDerive z)).map (fun t => (t.dlen, t.res)) = some (18#16, 0#16) := by
  decide +kernel

/-- `IcmpReplySendsEcho`, `IcmpPatchExactness`, each clause at its boundary. -/
theorem witness_icmp :
    Ready node ∧ 1#16 ≠ 0#16 ∧ (1#16).toNat ≤ node.cap ∧ (251#16).toNat ≤ node.cap ∧ node.cap < (252#16).toNat := by
  decide +kernel

/-- `UdpReplySendsDatagram`, both clauses at their boundary (V23). -/
theorem witness_udp :
    Ready node ∧ 42 + min (List.replicate 209 0#8).length node.cfg.udpMax ≤ node.cap ∧
      node.cap < 42 + min (List.replicate 210 0#8).length node.cfg.udpMax := by
  decide +kernel

/-- `SesPoffAnswers`: the largest header length. -/
theorem witness_session_legal :
    ({ node with sesv := true, hlen := 60#16, dlen := 5#16 }).sessionLegal ∧ (34#16 + 60#16).toNat = 94 := ⟨by unfold State.sessionLegal; decide +kernel, rfl⟩

/-- `ChecksumExtremes`: a `UDP` range with the protocol numbers of R8. -/
theorem witness_extremes :
    Kind.udp ≠ .ip ∧ ({} : Config).protoUdp = 17#8 ∧ ({} : Config).protoTcp = 6#8 := by
  decide +kernel

/-- `AckSendsAcknowledgment`, `SesPoffAnswers`, both clauses. -/
theorem witness_session :
    (Ready { node with sesv := true } ∧ ({ node with sesv := true }).sesv = true) ∧ Ready node ∧ node.sesv = false := by
  decide +kernel

/-- `AckDataSendsResponse`, both clauses at their boundary (V33). -/
theorem witness_ackdata :
    Ready node ∧ 54 + (197#16).toNat ≤ node.cap ∧ node.cap < 54 + (198#16).toNat := by
  decide +kernel

/-- `ClientSendsSegment`, both clauses at their boundary, without and with `MSS` (V36). -/
theorem witness_client :
    Ready node ∧ 54 + (if false then 4 else 0) + (197#16).toNat ≤ node.cap ∧ node.cap < 54 + (if false then 4 else 0) + (198#16).toNat ∧
      54 + (if true then 4 else 0) + (193#16).toNat ≤ node.cap ∧ node.cap < 54 + (if true then 4 else 0) + (194#16).toNat := by
  decide +kernel

/-- `FillPlacesText`, both clauses at their boundary (V34). -/
theorem witness_fill :
    Ready node ∧ 54 + (196#16).toNat + [0x7A#8].length ≤ node.cap ∧ node.cap < 54 + (197#16).toNat + [0x7A#8].length := by
  decide +kernel

/-- `SentChecksumsVerify`: a segment and a datagram. -/
theorem witness_sent :
    Ready node ∧ isClient (.tcpClient peerMac peerIp 80#16 0xC000#16 0x02#8 true true 0#16 0#16) = true ∧
      (∃ t, exec (.tcpClient peerMac peerIp 80#16 0xC000#16 0x02#8 true true 0#16 0#16) node = .next t ∧ t.fault = 0#8) ∧
      ∃ t, exec (.udpReply 7#16 [0x21#8]) node = .next t ∧ t.fault = 0#8 := ⟨by decide, rfl, ⟨_, rfl, by decide +kernel⟩, _, rfl, by decide +kernel⟩

/-- `TwoFillsConcatenate`: two texts that end at `CAP`. -/
theorem witness_fills :
    Ready node ∧ 54 + (List.replicate 100 0x41#8).length + (List.replicate 97 0x42#8).length ≤ node.cap := by
  decide +kernel

/-- `SentChecksumsVerify`: `DISPATCH` with a SYN, a FIN and a data segment. -/
theorem witness_sent_dispatch :
    (∃ t, exec .dispatch (arriving synFrame) = .next t ∧ t.fault = 0#8 ∧ t.res = 5#16) ∧
      (∃ t, exec .dispatch (arriving finFrame) = .next t ∧ t.fault = 0#8 ∧ t.res = 6#16) ∧
      ∃ t, exec .dispatch { arriving dataFrame with handler := [(request, hello)] } = .next t ∧ t.fault = 0#8 ∧ t.res = 8#16 := ⟨⟨_, rfl, by decide +kernel, by decide +kernel⟩, ⟨_, rfl, by decide +kernel, by decide +kernel⟩, _, rfl, by decide +kernel, by decide +kernel⟩

/-- `DataLengthIsSignedClamp`. -/
theorem witness_clamp :
    (60#16).toNat ≤ 60 := by
  decide +kernel

/-- `DispatchDrops`: nothing received; a frame of 40 bytes; a UDP datagram (V60 rows 1, 6, 10). -/
theorem witness_drops :
    (Ready node ∧ node.linkReceive.rxlen = 0#16) ∧
      (Ready (arriving (arpRequest.take 40)) ∧ (arriving (arpRequest.take 40)).linkReceive.rxlen ≠ 0#16 ∧
        ¬ArpRequest (arriving (arpRequest.take 40)).linkReceive ∧
        ¬Ip4ForMe (arriving (arpRequest.take 40)).linkReceive (arriving (arpRequest.take 40)).linkReceive.rxlen.toNat) ∧
      (Ready (arriving udpRequest) ∧ (arriving udpRequest).linkReceive.rxlen ≠ 0#16 ∧
        Ip4ForMe (arriving udpRequest).linkReceive (arriving udpRequest).linkReceive.rxlen.toNat ∧
        ¬EchoRequest (arriving udpRequest).linkReceive ∧
        ¬(TcpSegment (arriving udpRequest).linkReceive ∧
          (SynSet (arriving udpRequest).linkReceive ∨ AckSet (arriving udpRequest).linkReceive))) := by
  decide +kernel

/-- `DispatchReplies`, each clause: an ARP request, an echo request, a SYN with `ACK` set (V60 rows 2, 7, 12). -/
theorem witness_replies :
    (Ready (arriving arpRequest) ∧ (arriving arpRequest).linkReceive.rxlen ≠ 0#16 ∧ ArpRequest (arriving arpRequest).linkReceive) ∧
      ((arriving echoRequest).linkReceive.rxlen ≠ 0#16 ∧ EchoRequest (arriving echoRequest).linkReceive) ∧
      (arriving (synFrame.set 47 0x12#8)).linkReceive.rxlen ≠ 0#16 ∧ TcpSegment (arriving (synFrame.set 47 0x12#8)).linkReceive ∧
      SynSet (arriving (synFrame.set 47 0x12#8)).linkReceive := by
  decide +kernel

/-- `DispatchBareSegments`, the clause with `FIN`. -/
theorem witness_bare_fin :
    Ready (arriving finFrame) ∧ (arriving finFrame).linkReceive.rxlen ≠ 0#16 ∧ TcpSegment (arriving finFrame).linkReceive ∧
      ¬SynSet (arriving finFrame).linkReceive ∧ AckSet (arriving finFrame).linkReceive ∧ FinSet (arriving finFrame).linkReceive ∧
      dataLength ((arriving finFrame).linkReceive.buf.rd16 16) (headerLength (arriving finFrame).linkReceive.buf) = 0#16 := by
  decide +kernel

/-- `DispatchBareSegments`, the clause without `FIN`. -/
theorem witness_bare_ack :
    Ready (arriving bareAck) ∧ (arriving bareAck).linkReceive.rxlen ≠ 0#16 ∧ TcpSegment (arriving bareAck).linkReceive ∧
      ¬SynSet (arriving bareAck).linkReceive ∧ AckSet (arriving bareAck).linkReceive ∧ ¬FinSet (arriving bareAck).linkReceive ∧
      dataLength ((arriving bareAck).linkReceive.buf.rd16 16) (headerLength (arriving bareAck).linkReceive.buf) = 0#16 := by
  decide +kernel

/-- A data segment whose IP total length is `n`. -/
def dataOf (n : U16) : State := arriving ((dataFrame.set 16 (hi n)).set 17 (lo n))

/-- The state in which the request of `F_DATA` is answered by `n` bytes. -/
def answering (n : Nat) : State := { arriving dataFrame with handler := [(request, List.replicate n 0x41#8)] }

/-- `DispatchDataExchange`: a request that ends at `CAP`, and one byte beyond (V60 rows 21, 22). -/
theorem witness_exchange_request :
    (Ready (dataOf 237#16) ∧ (dataOf 237#16).linkReceive.rxlen ≠ 0#16 ∧ TcpSegment (dataOf 237#16).linkReceive ∧
        ¬SynSet (dataOf 237#16).linkReceive ∧ AckSet (dataOf 237#16).linkReceive ∧
        34 + (headerLength (dataOf 237#16).linkReceive.buf).toNat +
          (dataLength ((dataOf 237#16).linkReceive.buf.rd16 16) (headerLength (dataOf 237#16).linkReceive.buf)).toNat = 251) ∧
      TcpSegment (dataOf 238#16).linkReceive ∧ ¬SynSet (dataOf 238#16).linkReceive ∧ AckSet (dataOf 238#16).linkReceive ∧
        34 + (headerLength (dataOf 238#16).linkReceive.buf).toNat +
          (dataLength ((dataOf 238#16).linkReceive.buf.rd16 16) (headerLength (dataOf 238#16).linkReceive.buf)).toNat = 252 := by
  decide +kernel

/-- `DispatchDataExchange`, `DataSegmentYieldsTwoFrames`: the longest response that fits, and one byte more (V60 rows 23, 24). -/
theorem witness_exchange_response :
    (Ready (answering 197) ∧ (answering 197).linkReceive.rxlen ≠ 0#16 ∧ TcpSegment (answering 197).linkReceive ∧
        ¬SynSet (answering 197).linkReceive ∧ AckSet (answering 197).linkReceive ∧
        dataLength ((answering 197).linkReceive.buf.rd16 16) (headerLength (answering 197).linkReceive.buf) = 18#16 ∧
        request = (answering 197).linkReceive.buf.slice (34 + (headerLength (answering 197).linkReceive.buf).toNat) 18 ∧
        54 + ((answering 197).answer request).length = (answering 197).cap) ∧
      (answering 198).cap < 54 + ((answering 198).answer request).length := by
  decide +kernel

/-- `DispatchOutcomeCodes`, both clauses. -/
theorem witness_outcome :
    (∃ t, exec .dispatch (arriving synFrame) = .next t ∧ t.fault = 0#8) ∧ ∃ t, exec .dispatch (dataOf 238#16) = .next t ∧ t.fault ≠ 0#8 := ⟨⟨_, rfl, by decide +kernel⟩, _, rfl, by decide +kernel⟩

end Sys2Proof.Tests
end

section
/-! PROOFS. What every operation of the model has in common: one equation for `exec`, one inversion for `step`, and the row of
R37 as a function. -/

namespace Sys2Proof.Machine

open Sys2Proof.Claims

/-! ### One equation for `exec`, one inversion for `step` -/

/-- What an operation does once its checks have passed (R126): the runs the arms of `exec` hand to `command`, and the writes of
`INIT` (R261). -/
def opBody (i : Instr) (s : State) : Run :=
  match i with
  | .init mac ip port => .done 0#16 (State.setInited { s with mac := mac, ip := ip, port := port })
  | .cksumIp off len => opCksum .ip off len s
  | .cksumUdp off len => opCksum .udp off len s
  | .cksumTcp off len => opCksum .tcp off len s
  | .clsArp len => .done (boolRes (s.arpForMe len.toNat)) s
  | .clsIp4 len => .done (boolRes (s.ip4ForMe len.toNat)) s
  | .clsArprply => .done (boolRes s.arpReplyIsMine) s
  | .arpReply => opArpReply s
  | .arpReq dmac tip => opArpReq dmac tip s
  | .icmpReply len => opIcmpReply len s
  | .udpReply sport data => opUdpReply sport data s
  | .tcpSynack => opTcpSynack s
  | .tcpAck => opTcpAck s
  | .tcpAckdata dlen => opTcpAckdata dlen s
  | .tcpClient dmac dip dport sport flags mss clrack ackadv dlen =>
    opTcpClient dmac dip dport sport flags mss clrack ackadv dlen s
  | .fill pos text => opFill pos text s
  | .sesDerive => opSesDerive s
  | .sesPoff => opSesPoff s
  | .dispatch => opDispatch s
  | .recv => .done s.linkReceive.rxlen s.linkReceive

/-- The fault of an operation at the wrong side of initialisation (R28). -/
def guardFault (i : Instr) : Fault := if isInit i then .alreadyInitialised else .notInitialised

/-- The arms of `exec` other than `INIT` are commands. -/
theorem exec_eq_command {i : Instr} (h : isInit i = false) (s : State) : exec i s = command (opBody i) s := by
  cases i with
  | init mac ip port => cases h
  | _ => rfl

/-- The order of the checks (R126): refused while `FAULT != 0`, then the guard of R28, then the operation. -/
theorem exec_eq (i : Instr) (s : State) :
    exec i s = .next (if s.faulted then s
      else if s.inited = isInit i then raise (guardFault i) s
      else (opBody i s).finish) := by
  cases hi : isInit i with
  | true =>
    cases i with
    | init mac ip port =>
      show execInit mac ip port s = _
      unfold execInit
      cases s.faulted <;> cases s.inited <;> rfl
    | _ => cases hi
  | false =>
    rw [exec_eq_command hi]
    unfold command guardFault
    rw [hi]
    cases s.faulted <;> cases s.inited <;> rfl

/-- Everything an operation can do (R126). -/
theorem exec_cases {i : Instr} {s t : State} (h : exec i s = .next t) :
    (s.fault ≠ 0#8 ∧ t = s) ∨
    (s.fault = 0#8 ∧ s.inited = isInit i ∧ t = raise (guardFault i) s) ∨
    (s.fault = 0#8 ∧ s.inited ≠ isInit i ∧ t = (opBody i s).finish) := by
  rw [exec_eq, Host.Outcome.next.injEq] at h
  split at h
  next hf => exact .inl ⟨(s.faulted_iff).1 hf, h.symm⟩
  next hf =>
    have hf : s.fault = 0#8 := by simpa using hf
    split at h
    next hi => exact .inr (.inl ⟨hf, hi, h.symm⟩)
    next hi => exact .inr (.inr ⟨hf, hi, h.symm⟩)

theorem step_idle {s : State} (h : s.cmds = []) : step s = .next s := by
  unfold step
  rw [h]

theorem step_illegal {s : State} {c : List Byte} {rest : List (List Byte)} {e : DecodeError} (h : s.cmds = c :: rest)
    (hd : decode c = .error e) : step s = .next (illegal (s.withCommands rest)).respond := by
  unfold step runCommand
  simp only [h, hd]

theorem step_decoded {s u : State} {c : List Byte} {rest : List (List Byte)} {i : Instr} (h : s.cmds = c :: rest)
    (hd : decode c = .ok i) (hu : exec i (s.withCommands rest) = .next u) : step s = .next u.respond := by
  unfold step runCommand
  simp only [h, hd, hu, Machine.answered]

/-- An illegal command is no other change than a fault raised (R124, R293). -/
theorem illegal_eq_raise (s : State) : illegal s = raise .illegalCommand s := by
  by_cases h : s.fault = 0#8
  · simp [illegal, h]
  · rw [raise_of_faulted _ h]
    simp [illegal, h]

/-- Everything a step can do (R120, R124, R299). -/
theorem step_cases {s t : State} (h : step s = .next t) :
    (s.cmds = [] ∧ t = s) ∨
    (∃ c rest, s.cmds = c :: rest ∧ t = (raise .illegalCommand (s.withCommands rest)).respond) ∨
    (∃ c rest i u, s.cmds = c :: rest ∧ decode c = .ok i ∧ exec i (s.withCommands rest) = .next u ∧ t = u.respond) := by
  cases hc : s.cmds with
  | nil =>
    rw [step_idle hc, Host.Outcome.next.injEq] at h
    exact .inl ⟨rfl, h.symm⟩
  | cons c rest =>
    cases hd : decode c with
    | error e =>
      rw [step_illegal hc hd, illegal_eq_raise, Host.Outcome.next.injEq] at h
      exact .inr (.inl ⟨c, rest, rfl, h.symm⟩)
    | ok i =>
      rw [step_decoded hc hd (exec_eq i _), Host.Outcome.next.injEq] at h
      exact .inr (.inr ⟨c, rest, i, _, rfl, hd, exec_eq i _, h.symm⟩)

/-- A property is kept by every step when taking a command, raising a fault, writing `RES`, giving the response and every
operation that passes its checks keep it. -/
theorem step_keeps {P : State → Prop}
    (htake : ∀ s rest, P s → P (s.withCommands rest))
    (hraise : ∀ s f, P s → P (raise f s))
    (hres : ∀ s v, P s → P { s with res := v })
    (hrespond : ∀ s, P s → P s.respond)
    (hbody : ∀ i s, P s → s.fault = 0#8 → s.inited ≠ isInit i → (opBody i s).ends P)
    {s t : State} (hs : P s) (h : step s = .next t) : P t := by
  rcases step_cases h with ⟨-, rfl⟩ | ⟨c, rest, -, rfl⟩ | ⟨c, rest, i, u, -, -, hu, rfl⟩
  · exact hs
  · exact hrespond _ (hraise _ _ (htake _ _ hs))
  · have hs' := htake s rest hs
    refine hrespond _ ?_
    rcases exec_cases hu with ⟨-, rfl⟩ | ⟨-, -, rfl⟩ | ⟨hf, hi, rfl⟩
    · exact hs'
    · exact hraise _ _ hs'
    · exact Run.finish_of_ends (hbody i _ hs' hf hi) hres hraise

/-! ### The results of `DISPATCH` -/

/-- The runs `DISPATCH` can end in, `r` being the state after its receive (R270 to R276). -/
inductive DispatchEnd (r : State) : Run → Prop
  /-- Rules 1, 3 and 9: the frame is dropped. -/
  | dropped (code : U16) (h : code ≠ 5#16) : DispatchEnd r (.done code r)
  /-- Rule 2. -/
  | arpReply : DispatchEnd r (.done 2#16 (State.send 42 { r with buf := arpReplyFrame r.mac r.ip r.buf }))
  /-- Rule 4. -/
  | echoReply (hn : r.rxlen ≠ 0#16) (hc : r.rxlen.toNat ≤ r.cap) : DispatchEnd r (.done 4#16 (State.send r.rxlen.toNat { r with
      buf := icmpReplyFrame r.cfg r.mac r.ip r.buf
      sum := (ipZeroed r.cfg (icmpAddressed r.mac r.ip r.buf)).sumOf r.cfg .ip IP_VIHL 20 }))
  /-- Rule 5. -/
  | synack : DispatchEnd r (.done 5#16 (State.tcpSend { r with seq := r.seq + r.cfg.seqStep }
      (synackZeroed r.cfg r.mac r.ip r.port r.seq r.buf) 32 58))
  /-- Rule 6. -/
  | bareFin : DispatchEnd r (.done 6#16 r.derived.acked)
  /-- Rule 7. -/
  | bareAck : DispatchEnd r (.done 7#16 r.derived)
  /-- Rule 8, the request not inside `CAP`. -/
  | requestBeyond : DispatchEnd r (.raised .bufferBounds r.derived)
  /-- Rule 8, the response not inside `CAP`. -/
  | responseBeyond (req : List Byte) : DispatchEnd r (.raised .bufferBounds (r.derived.logRequest req))
  /-- Rule 8. -/
  | exchange (req resp : List Byte) (h : 54 + resp.length ≤ r.cap) :
      DispatchEnd r (.done 8#16 ((r.derived.filled req resp).acked.answered (u16 resp.length)))

/-- Rules 6 to 8. -/
theorem dispatchAck_end (r : State) : DispatchEnd r (dispatchAck r) := by
  rcases dispatchAck_cases r with ⟨-, -, h⟩ | ⟨-, -, h⟩ | ⟨-, -, h⟩
  · rw [h]; exact .bareFin
  · rw [h]; exact .bareAck
  · rcases dispatchData_cases (34#16 + r.derived.hlen) r.derived rfl with ⟨-, h2⟩ | ⟨-, -, h2⟩ | ⟨-, hc, h2⟩
    · rw [h, h2]; exact .requestBeyond
    · rw [h, h2]; exact .responseBeyond _
    · rw [h, h2]; exact .exchange _ _ hc

theorem dispatchFrame_end {r : State} (hn : r.rxlen ≠ 0#16) (hc : r.rxlen.toNat ≤ r.cap) :
    DispatchEnd r (dispatchFrame r.rxlen r) := by
  rcases dispatchFrame_cases r hn hc with ⟨-, h⟩ | ⟨-, -, h⟩ | ⟨-, -, -, h⟩ | ⟨-, -, -, -, -, h⟩ | ⟨-, -, -, -, -, -, h⟩ |
    ⟨-, -, -, -, h⟩
  · rw [h]; exact .arpReply
  · rw [h]; exact .dropped _ (by decide)
  · rw [h]; exact .echoReply hn hc
  · rw [h]; exact .synack
  · rw [h]; exact dispatchAck_end r
  · rw [h]; exact .dropped _ (by decide)

theorem opDispatch_end (s : State) : DispatchEnd s.linkReceive (opDispatch s) := by
  rcases opDispatch_cases s with ⟨-, h⟩ | ⟨hn, hc, h⟩
  · rw [h]; exact .dropped _ (by decide)
  · rw [h]; exact dispatchFrame_end hn hc

/-! ### The table of write sets (R37) -/

/-- `s` with every register of the operation's row taken from `t`: the row of R37, with `SUM` by R33 and the handler's
requests by R308. -/
def opRow (i : Instr) (s t : State) : State :=
  match i with
  | .init _ _ _ => { s with mac := t.mac, ip := t.ip, port := t.port, inited := t.inited }
  | .cksumIp _ _ => { s with sum := t.sum }
  | .cksumUdp _ _ => { s with sum := t.sum }
  | .cksumTcp _ _ => { s with sum := t.sum }
  | .clsArp _ => s
  | .clsIp4 _ => s
  | .clsArprply => s
  | .arpReply => { s with buf := t.buf, txlog := t.txlog }
  | .arpReq _ _ => { s with buf := t.buf, txlog := t.txlog }
  | .icmpReply _ => { s with buf := t.buf, sum := t.sum, txlog := t.txlog }
  | .udpReply _ _ => { s with buf := t.buf, sum := t.sum, txlog := t.txlog }
  | .tcpSynack => { s with buf := t.buf, seq := t.seq, sum := t.sum, txlog := t.txlog }
  | .tcpAck => { s with buf := t.buf, sum := t.sum, txlog := t.txlog }
  | .tcpAckdata _ => { s with buf := t.buf, sum := t.sum, txlog := t.txlog }
  | .tcpClient _ _ _ _ _ mss _ _ _ =>
    { s with buf := t.buf, ipid := t.ipid, seq := if mss then t.seq else s.seq, sum := t.sum, txlog := t.txlog }
  | .fill _ _ => { s with buf := t.buf }
  | .sesDerive => { s with hlen := t.hlen, dlen := t.dlen, sesv := t.sesv }
  | .sesPoff => s
  | .dispatch =>
    { s with buf := t.buf, seq := t.seq, hlen := t.hlen, dlen := t.dlen, sum := t.sum, sesv := t.sesv, rxlen := t.rxlen,
             txlog := t.txlog, rx := t.rx, reqlog := t.reqlog }
  | .recv => { s with buf := t.buf, sesv := t.sesv, rxlen := t.rxlen, rx := t.rx }

theorem opRow_self (i : Instr) (s : State) : opRow i s s = s := by
  cases i with
  | tcpClient dmac dip dport sport flags mss clrack ackadv dlen => cases mss <;> rfl
  | _ => rfl

theorem opCksum_row (kind : Kind) (off len : U16) (s : State) :
    (opCksum kind off len s).ends fun t => t = { s with sum := t.sum } := by
  rcases opCksum_cases kind off len s with ⟨-, -, h⟩ | ⟨-, -, -, h⟩ | ⟨-, -, h⟩ <;> rw [h] <;> rfl

theorem DispatchEnd.row {s : State} {run : Run} (h : DispatchEnd s.linkReceive run) :
    run.ends fun t => t = opRow .dispatch s t := by
  cases h <;> simp [Run.ends, opRow, State.send, State.tcpSend, State.acked, State.answered, State.filled, State.logRequest,
    State.derived, State.setSesv, State.linkReceive, State.clearSesv]

/-- An operation that passes its checks writes only the registers of its row. -/
theorem opBody_row (i : Instr) (s : State) : (opBody i s).ends fun t => t = opRow i s t := by
  cases i with
  | cksumIp off len => exact opCksum_row .ip off len s
  | cksumUdp off len => exact opCksum_row .udp off len s
  | cksumTcp off len => exact opCksum_row .tcp off len s
  | arpReply => simp [opBody, opArpReply, Run.ends, opRow, State.send]
  | arpReq dmac tip => simp [opBody, opArpReq, Run.ends, opRow, State.send]
  | icmpReply len =>
    show (opIcmpReply len s).ends _
    rcases opIcmpReply_cases len s with ⟨-, h⟩ | ⟨-, -, h⟩ | ⟨-, -, h⟩ <;> rw [h] <;> rfl
  | udpReply sport data =>
    show (opUdpReply sport data s).ends _
    rcases opUdpReply_cases sport data s with ⟨-, h⟩ | ⟨-, h⟩ <;> rw [h] <;> rfl
  | tcpSynack => simp [opBody, opTcpSynack, Run.ends, opRow, State.tcpSend, State.send]
  | tcpAck =>
    show (opTcpAck s).ends _
    rcases opTcpAck_cases s with ⟨-, h⟩ | ⟨-, h⟩ <;> rw [h] <;> rfl
  | tcpAckdata dlen =>
    show (opTcpAckdata dlen s).ends _
    rcases opTcpAckdata_cases dlen s with ⟨-, h⟩ | ⟨-, h⟩ <;> rw [h] <;> rfl
  | tcpClient dmac dip dport sport flags mss clrack ackadv dlen =>
    show (opTcpClient dmac dip dport sport flags mss clrack ackadv dlen s).ends _
    rcases opTcpClient_cases dmac dip dport sport flags mss clrack ackadv dlen s with ⟨-, h⟩ | ⟨-, h⟩
    · rw [h]; exact (opRow_self _ _).symm
    · rw [h]; cases mss <;> simp [Run.ends, opRow, State.tcpSend, State.send]
  | fill pos text =>
    show (opFill pos text s).ends _
    rcases opFill_cases pos text s with ⟨-, h⟩ | ⟨-, h⟩ <;> rw [h] <;> rfl
  | sesPoff =>
    show (opSesPoff s).ends _
    rcases opSesPoff_cases s with ⟨-, h⟩ | ⟨-, h⟩ <;> rw [h] <;> rfl
  | dispatch => exact (opDispatch_end s).row
  | init | clsArp | clsIp4 | clsArprply | sesDerive | recv => rfl

/-- The registers that no operation writes before its end: `FAULT` and `RES` are written by `Run.finish` alone (R30, R292), the
others by no operation. -/
theorem opRow_fixed (i : Instr) (s t : State) :
    (opRow i s t).fault = s.fault ∧ (opRow i s t).res = s.res ∧ (opRow i s t).cfg = s.cfg ∧ (opRow i s t).handler = s.handler ∧
      (opRow i s t).cmds = s.cmds ∧ (opRow i s t).resps = s.resps := by
  cases i <;> exact ⟨rfl, rfl, rfl, rfl, rfl, rfl⟩

/-- A row has neither `RES` nor `FAULT`. -/
theorem opRow_of_finished (i : Instr) (s u : State) (v : U16) (x : Byte) :
    opRow i s { u with res := v, fault := x } = opRow i s u := by
  cases i <;> rfl

theorem raise_eq_with_fault (f : Fault) (s : State) : raise f s = { s with fault := (raise f s).fault } := by
  unfold raise
  split <;> rfl

/-- R37: an operation writes the registers of its row, and `RES` and `FAULT`; refused, it writes none. -/
theorem exec_row {i : Instr} {s t : State} (h : exec i s = .next t) :
    t = { opRow i s t with res := t.res, fault := t.fault } := by
  have finished : ∀ {u : State}, u = opRow i s u → ∀ (v : U16) (x : Byte),
      { u with res := v, fault := x } = { opRow i s { u with res := v, fault := x } with res := v, fault := x } := by
    intro u hu v x
    rw [opRow_of_finished, ← hu]
  have raised : ∀ (f : Fault) {u : State}, u = opRow i s u →
      raise f u = { opRow i s (raise f u) with res := (raise f u).res, fault := (raise f u).fault } := by
    intro f u hu
    rw [raise_eq_with_fault]
    exact finished hu u.res _
  have hbody := opBody_row i s
  rcases exec_cases h with ⟨-, rfl⟩ | ⟨-, -, rfl⟩ | ⟨-, -, rfl⟩
  · rw [opRow_self]
  · exact raised _ (opRow_self i s).symm
  · cases hr : opBody i s with
    | done v u => rw [hr] at hbody; exact finished hbody v u.fault
    | raised f u => rw [hr] at hbody; exact raised f hbody

end Sys2Proof.Machine
end

section
/-! PROOFS. The state (10_state.md): reset, the guards of initialisation, the first fault, the identity, the counters, the
table of write sets, and what reads `RXLEN`. -/

namespace Sys2Proof.Machine

open Sys2Proof.Claims

/-! ### The columns of the table of write sets (R37) -/

theorem Run.ends_mono {P Q : State → Prop} {r : Run} (hr : r.ends P) (h : ∀ s, P s → Q s) : r.ends Q := by
  cases r with
  | done v s => exact h s hr
  | raised f s => exact h s hr

theorem opRow_identity {i : Instr} (h : isInit i = false) (s t : State) :
    (opRow i s t).mac = s.mac ∧ (opRow i s t).ip = s.ip ∧ (opRow i s t).port = s.port ∧ (opRow i s t).inited = s.inited := by
  cases i with
  | init mac ip port => cases h
  | _ => exact ⟨rfl, rfl, rfl, rfl⟩

theorem opRow_ipid {i : Instr} (h : isClient i = false) (s t : State) : (opRow i s t).ipid = s.ipid := by
  cases i with
  | tcpClient => cases h
  | _ => rfl

theorem opRow_reqlog {i : Instr} (h : i ≠ .dispatch) (s t : State) : (opRow i s t).reqlog = s.reqlog := by
  cases i with
  | dispatch => exact absurd rfl h
  | _ => rfl

theorem opRow_session {i : Instr} (h : derives i = false) (s t : State) :
    (opRow i s t).hlen = s.hlen ∧ (opRow i s t).dlen = s.dlen := by
  cases i with
  | sesDerive | dispatch => cases h
  | _ => exact ⟨rfl, rfl⟩

theorem opRow_sesv {i : Instr} (hd : derives i = false) (hr : receives i = false) (s t : State) :
    (opRow i s t).sesv = s.sesv := by
  cases i with
  | sesDerive | dispatch => cases hd
  | recv => cases hr
  | _ => rfl

theorem opRow_link {i : Instr} (h : receives i = false) (s t : State) :
    (opRow i s t).rxlen = s.rxlen ∧ (opRow i s t).rx = s.rx := by
  cases i with
  | recv | dispatch => cases h
  | _ => exact ⟨rfl, rfl⟩

theorem opRow_seq {i : Instr} (h : mayAdvanceSeq i = false) (s t : State) : (opRow i s t).seq = s.seq := by
  cases i with
  | tcpSynack | dispatch => cases h
  | tcpClient dmac dip dport sport flags mss clrack ackadv dlen => cases h; rfl
  | _ => rfl

theorem opRow_buf {i : Instr} (h : writesBuf i = false) (s t : State) : (opRow i s t).buf = s.buf := by
  cases i with
  | init | cksumIp | cksumUdp | cksumTcp | clsArp | clsIp4 | clsArprply | sesDerive | sesPoff => rfl
  | _ => cases h

theorem opRow_txlog {i : Instr} (h : transmits i = false) (s t : State) : (opRow i s t).txlog = s.txlog := by
  cases i with
  | init | cksumIp | cksumUdp | cksumTcp | clsArp | clsIp4 | clsArprply | fill | sesDerive | sesPoff | recv => rfl
  | _ => cases h

/-- `FAULT` is written at the end of a command only (R292). -/
theorem opBody_fault (i : Instr) (s : State) : (opBody i s).ends fun t => t.fault = s.fault :=
  Run.ends_mono (opBody_row i s) fun t h => (congrArg State.fault h).trans (opRow_fixed i s t).1

/-! ### The counters (R22) -/

/-- What a run leaves in `IPID` and `SEQ`, `s` being the state the operation starts in. -/
def CountersAfter (i : Instr) (s : State) : Run → Prop
  | .done v t => t.ipid = s.ipid + (if isClient i then 1#16 else 0#16) ∧
      t.seq = s.seq + (if startsExchange i v then s.cfg.seqStep else 0#8)
  | .raised _ t => t.ipid = s.ipid ∧ t.seq = s.seq

theorem startsExchange_eq_false {i : Instr} (h : mayAdvanceSeq i = false) (v : U16) : startsExchange i v = false := by
  cases i with
  | dispatch => cases h
  | tcpSynack | tcpClient => exact h
  | _ => rfl

/-- An operation with neither counter in its row keeps both. -/
theorem countersAfter_of_row {i : Instr} (hc : isClient i = false) (hs : mayAdvanceSeq i = false) (s : State) :
    CountersAfter i s (opBody i s) := by
  have hkept : (opBody i s).ends fun t => t.ipid = s.ipid ∧ t.seq = s.seq := Run.ends_mono (opBody_row i s) fun t h =>
    ⟨(congrArg State.ipid h).trans (opRow_ipid hc s t), (congrArg State.seq h).trans (opRow_seq hs s t)⟩
  cases hr : opBody i s with
  | raised f t => rw [hr] at hkept; exact hkept
  | done v t =>
    rw [hr] at hkept
    obtain ⟨hipid, hseq⟩ := hkept
    simp [CountersAfter, hc, startsExchange_eq_false hs, hipid, hseq]

/-- `DISPATCH` advances `SEQ` through rule 5 only (R22, R270). -/
theorem DispatchEnd.counters {s : State} {run : Run} (h : DispatchEnd s.linkReceive run) : CountersAfter .dispatch s run := by
  cases h with
  | dropped code h => simp [CountersAfter, isClient, startsExchange, h]
  | synack => simp [CountersAfter, isClient, startsExchange]
  | _ => simp [CountersAfter, isClient, startsExchange, State.answered, State.acked, State.filled, State.derived]

theorem opBody_counters (i : Instr) (s : State) : CountersAfter i s (opBody i s) := by
  cases i with
  | tcpSynack => simp [CountersAfter, opBody, opTcpSynack, isClient, startsExchange]
  | tcpClient dmac dip dport sport flags mss clrack ackadv dlen =>
    show CountersAfter _ s (opTcpClient dmac dip dport sport flags mss clrack ackadv dlen s)
    rcases opTcpClient_cases dmac dip dport sport flags mss clrack ackadv dlen s with ⟨-, h⟩ | ⟨-, h⟩
    · rw [h]; exact ⟨rfl, rfl⟩
    · rw [h]; cases mss <;> simp [CountersAfter, isClient, startsExchange]
  | dispatch => exact (opDispatch_end s).counters
  | _ => exact countersAfter_of_row rfl rfl s

/-! ### Two runs of one operation -/

/-- Two runs that end the same way in related states. -/
inductive Run.Rel (R : State → State → Prop) : Run → Run → Prop
  | done (v : U16) {s s' : State} (h : R s s') : Run.Rel R (.done v s) (.done v s')
  | raised (f : Fault) {s s' : State} (h : R s s') : Run.Rel R (.raised f s) (.raised f s')

theorem Run.Rel.ite {R : State → State → Prop} {c : Prop} [Decidable c] {a b a' b' : Run} (ha : c → Run.Rel R a a')
    (hb : ¬c → Run.Rel R b b') : Run.Rel R (if c then a else b) (if c then a' else b') := by
  split
  next h => exact ha h
  next h => exact hb h

theorem Run.Rel.andThen {R Q : State → State → Prop} {r r' : Run} {next next' : U16 → State → Run} (hr : Run.Rel R r r')
    (hnext : ∀ v {s s'}, R s s' → Run.Rel Q (next v s) (next' v s')) (hRQ : ∀ {s s'}, R s s' → Q s s') :
    Run.Rel Q (r.andThen next) (r'.andThen next') := by
  cases hr with
  | done v h => exact hnext v h
  | raised f h => exact .raised f (hRQ h)

theorem Run.Rel.mono {R Q : State → State → Prop} {r r' : Run} (hr : Run.Rel R r r') (h : ∀ {s s'}, R s s' → Q s s') :
    Run.Rel Q r r' := by
  cases hr with
  | done v hs => exact .done v (h hs)
  | raised f hs => exact .raised f (h hs)

theorem Run.Rel.outcome {R : State → State → Prop} {r r' : Run} (hr : Run.Rel R r r') (code : U16) :
    Run.Rel R (r.outcome code) (r'.outcome code) :=
  hr.andThen (fun _ _ _ h => .done code h) id

theorem Run.Rel.finish {R : State → State → Prop} {r r' : Run} (hr : Run.Rel R r r')
    (hraise : ∀ f {u u'}, R u u' → R (raise f u) (raise f u'))
    (hres : ∀ v {u u'}, R u u' → R { u with res := v } { u' with res := v }) : R r.finish r'.finish := by
  cases hr with
  | done v h => exact hres v h
  | raised f h => exact hraise f h

/-- A relation between states that the checks of R126 do not see is kept by an operation when its body, a fault and the result
keep it. -/
theorem exec_rel {R : State → State → Prop} {s s' : State} (i : Instr) (h : R s s') (hfault : s'.fault = s.fault)
    (hinited : s'.inited = s.inited) (hraise : ∀ f {u u'}, R u u' → R (raise f u) (raise f u'))
    (hres : ∀ v {u u'}, R u u' → R { u with res := v } { u' with res := v })
    (hbody : s.inited ≠ isInit i → Run.Rel R (opBody i s) (opBody i s')) :
    ∃ t t', exec i s = .next t ∧ exec i s' = .next t' ∧ R t t' := by
  refine ⟨_, _, exec_eq i s, exec_eq i s', ?_⟩
  rw [State.faulted, State.faulted, hfault, hinited]
  split
  next => exact h
  next =>
    split
    next => exact hraise _ h
    next hi =>
      exact (hbody hi).finish hraise hres

/-- A relation between states that differ only where no operation but `INIT`, `RECV` and `DISPATCH` looks, kept by each of the
writes such an operation makes. -/
structure Unseen (R : State → State → Prop) : Prop where
  reads : ∀ {s s'}, R s s' → s'.cfg = s.cfg ∧ s'.buf = s.buf ∧ s'.mac = s.mac ∧ s'.ip = s.ip ∧ s'.port = s.port ∧
    s'.ipid = s.ipid ∧ s'.seq = s.seq ∧ s'.sesv = s.sesv
  session : ∀ {s s'}, R s s' → s.sesv = true → s'.hlen = s.hlen ∧ s'.dlen = s.dlen
  buf : ∀ {s s'} (m : Memory), R s s' → R { s with buf := m } { s' with buf := m }
  sum : ∀ {s s'} (x : Nat), R s s' → R { s with sum := x } { s' with sum := x }
  counters : ∀ {s s'} (v : U16) (b : Byte), R s s' → R { s with ipid := v, seq := b } { s' with ipid := v, seq := b }
  send : ∀ {s s'} (n : Nat), R s s' → R (s.send n) (s'.send n)
  derive : ∀ {s s'} (h d : U16), R s s' →
    R (State.setSesv { s with hlen := h, dlen := d }) (State.setSesv { s' with hlen := h, dlen := d })

section
variable {R : State → State → Prop} {s s' : State}

theorem Unseen.sendFrame (hR : Unseen R) (h : R s s') (m : Memory) (x n : Nat) :
    R (State.send n { s with buf := m, sum := x }) (State.send n { s' with buf := m, sum := x }) :=
  hR.send n (hR.sum x (hR.buf m h))

theorem Unseen.tcpSend (hR : Unseen R) (h : R s s') (z : Memory) (len n : Nat) : R (s.tcpSend z len n) (s'.tcpSend z len n) := by
  obtain ⟨hcfg, -⟩ := hR.reads h
  have hs' : s'.tcpSend z len n = State.send n { s' with
      buf := z.storeCksum s.cfg .tcp IP_SRC len TCP_CSUM
      sum := z.sumOf s.cfg .tcp IP_SRC len } := by
    rw [← hcfg]
    rfl
  rw [hs']
  exact hR.sendFrame h _ _ n

theorem opCksum_rel (hR : Unseen R) (h : R s s') (kind : Kind) (off len : U16) :
    Run.Rel R (opCksum kind off len s) (opCksum kind off len s') := by
  have hreads := hR.reads h
  cases s
  cases s'
  dsimp only at hreads
  obtain ⟨rfl, rfl, -⟩ := hreads
  dsimp only [opCksum, State.cap]
  exact .ite (fun _ => .raised _ h) fun _ => .ite (fun _ => .raised _ h) fun _ => .done _ (hR.sum _ h)

/-- Every operation but `INIT`, `RECV` and `DISPATCH` keeps such a relation. -/
theorem opBody_rel (hR : Unseen R) {i : Instr} (hi : isInit i = false) (hr : receives i = false) (h : R s s') :
    Run.Rel R (opBody i s) (opBody i s') := by
  have hreads := hR.reads h
  have hsession := hR.session h
  cases s
  cases s'
  dsimp only at hreads hsession
  obtain ⟨rfl, rfl, rfl, rfl, rfl, rfl, rfl, rfl⟩ := hreads
  cases i with
  | init => cases hi
  | recv | dispatch => cases hr
  | cksumIp off len => exact opCksum_rel hR h .ip off len
  | cksumUdp off len => exact opCksum_rel hR h .udp off len
  | cksumTcp off len => exact opCksum_rel hR h .tcp off len
  | clsArp | clsIp4 | clsArprply => exact .done _ h
  | arpReply | arpReq => exact .done _ (hR.send _ (hR.buf _ h))
  | icmpReply =>
    exact .ite (fun _ => .raised _ h) fun _ => .ite (fun _ => .raised _ h) fun _ => .done _ (hR.sendFrame h _ _ _)
  | udpReply => exact .ite (fun _ => .raised _ h) fun _ => .done _ (hR.sendFrame h _ _ _)
  | tcpSynack => exact .done _ (hR.tcpSend (hR.counters _ _ h) _ _ _)
  | tcpAck =>
    dsimp only [opBody, opTcpAck]
    refine .ite (fun hv => ?_) fun _ => .raised _ h
    obtain ⟨-, rfl⟩ := hsession hv
    exact .done _ (hR.tcpSend h _ _ _)
  | tcpAckdata => exact .ite (fun _ => .raised _ h) fun _ => .done _ (hR.tcpSend h _ _ _)
  | tcpClient => exact .ite (fun _ => .raised _ h) fun _ => .done _ (hR.tcpSend (hR.counters _ _ h) _ _ _)
  | fill => exact .ite (fun _ => .raised _ h) fun _ => .done _ (hR.buf _ h)
  | sesDerive => exact .done _ (hR.derive _ _ h)
  | sesPoff =>
    dsimp only [opBody, opSesPoff]
    refine .ite (fun hv => ?_) fun _ => .raised _ h
    obtain ⟨rfl, rfl⟩ := hsession hv
    exact .done _ h

end

/-! ### `RXLEN` bounds no access (R32, R160) -/

/-- The second state is the first with `n` in `RXLEN`. -/
def SameButRxlen (n : U16) (s s' : State) : Prop := s' = { s with rxlen := n }

theorem sameButRxlen_unseen (n : U16) : Unseen (SameButRxlen n) where
  reads := by rintro s _ rfl; exact ⟨rfl, rfl, rfl, rfl, rfl, rfl, rfl, rfl⟩
  session := by rintro s _ rfl -; exact ⟨rfl, rfl⟩
  buf := by rintro s _ m rfl; rfl
  sum := by rintro s _ x rfl; rfl
  counters := by rintro s _ v b rfl; rfl
  send := by rintro s _ k rfl; rfl
  derive := by rintro s _ a d rfl; rfl

theorem SameButRxlen.raise {n : U16} {s s' : State} (f : Fault) (h : SameButRxlen n s s') :
    SameButRxlen n (raise f s) (raise f s') := by
  subst h
  unfold Machine.raise
  split <;> rfl

theorem SameButRxlen.init (n : U16) (s : State) {i : Instr} (h : isInit i = true) :
    Run.Rel (SameButRxlen n) (opBody i s) (opBody i { s with rxlen := n }) := by
  cases i with
  | init mac ip port => exact .done _ rfl
  | _ => cases h

end Sys2Proof.Machine

namespace Sys2Proof.Proofs

open Sys2Proof.Machine Sys2Proof.Claims

/-- Settles O13: from a fault on, every part of a step keeps the code; from none, a step records at most one, and every code is
at most 6. -/
theorem firstFaultStays : Obligations.FirstFaultStays := by
  intro s t h
  constructor
  · intro hs
    refine step_keeps (P := fun u => u.fault = s.fault) (fun _ _ h => h) (fun u f hu => ?_) (fun _ _ h => h) (fun _ h => h)
      (fun i u hu hclear => absurd (hu.symm.trans hclear) hs) rfl h
    rw [raise_of_faulted f (hu ▸ hs)]
    exact hu
  · intro hs
    refine step_keeps (P := fun u => u.fault.toNat ≤ 6) (fun _ _ h => h) (fun u f hu => ?_) (fun _ _ h => h) (fun _ h => h)
      (fun i u hu _ _ => Run.ends_mono (opBody_fault i u) fun v hv => hv ▸ hu) (by simp [hs]) h
    rw [raise_fault]
    split
    · exact f.code_le
    · exact hu

/-- Settles O18: the checks do not see `RXLEN`, and a body that receives nothing neither reads nor writes it. -/
theorem rxlenBoundsNoAccess : Obligations.RxlenBoundsNoAccess := by
  intro i s n hr
  obtain ⟨t, t', ht, ht', h⟩ := exec_rel (R := SameButRxlen n) (s := s) i rfl rfl rfl (fun f _ _ hu => hu.raise f)
    (fun v u u' hu => by subst hu; rfl) fun _ => by
      cases hi : isInit i with
      | true => exact SameButRxlen.init n s hi
      | false => exact opBody_rel (sameButRxlen_unseen n) hi hr rfl
  rw [ht', ht, h]
  rfl

/-- Settles O19: with `INITED = 1` only `INIT` could write the identity, and its guard stops it. -/
theorem identityImmutable : Obligations.IdentityImmutable := by
  intro s t hs h
  refine step_keeps (P := fun u => u.mac = s.mac ∧ u.ip = s.ip ∧ u.port = s.port ∧ u.inited = true) (fun _ _ h => h)
    (fun u f hu => by simpa using hu) (fun _ _ h => h) (fun _ h => h) (fun i u hu _ hguard => ?_) ⟨rfl, rfl, rfl, hs⟩ h
  obtain ⟨hmac, hip, hport, hinited⟩ := hu
  have hi : isInit i = false := by simpa [hinited] using hguard
  refine Run.ends_mono (opBody_row i u) fun v hv => ?_
  obtain ⟨kmac, kip, kport, kinited⟩ := opRow_identity hi u v
  exact ⟨(congrArg State.mac hv).trans (kmac.trans hmac), (congrArg State.ip hv).trans (kip.trans hip),
    (congrArg State.port hv).trans (kport.trans hport), (congrArg State.inited hv).trans (kinited.trans hinited)⟩

/-- Settles O20: refused or stopped, an operation leaves `FAULT` not 0 and the counters alone; completed, `opBody_counters` says
what it added. -/
theorem countersAdvanceExactly : Obligations.CountersAdvanceExactly := by
  intro i s t h
  rcases exec_cases h with ⟨hf, rfl⟩ | ⟨hf, -, rfl⟩ | ⟨hf, -, rfl⟩
  · exact ⟨fun h0 => absurd h0 hf, fun _ => ⟨rfl, rfl⟩⟩
  · simp [hf, Fault.code_ne_zero]
  · have hcount := opBody_counters i s
    have hfault := opBody_fault i s
    cases hr : opBody i s with
    | done v u =>
      rw [hr] at hcount hfault
      exact ⟨fun _ => hcount, fun hne => absurd (hfault.trans hf) hne⟩
    | raised f u =>
      rw [hr] at hcount hfault
      have hu : u.fault = 0#8 := hfault.trans hf
      have hne : (raise f u).fault ≠ 0#8 := by simp [hu, Fault.code_ne_zero]
      exact ⟨fun h0 => absurd h0 hne, fun _ => by simpa [CountersAfter] using hcount⟩

/-- Settles O21, column by column from the operation's row. -/
theorem registerWriteSets : Obligations.RegisterWriteSets := by
  intro i s t h
  have hrow := exec_row h
  obtain ⟨-, -, hcfg, hhandler, hcmds, hresps⟩ := opRow_fixed i s t
  refine ⟨fun hi => ?_, fun hi => (congrArg State.buf hrow).trans (opRow_buf hi s t),
    fun hi => (congrArg State.ipid hrow).trans (opRow_ipid hi s t), fun hi => (congrArg State.seq hrow).trans (opRow_seq hi s t),
    fun hi => ?_, fun hd hr => (congrArg State.sesv hrow).trans (opRow_sesv hd hr s t), fun hi => ?_,
    fun hi => (congrArg State.txlog hrow).trans (opRow_txlog hi s t),
    fun hi => (congrArg State.reqlog hrow).trans (opRow_reqlog hi s t),
    (congrArg State.cfg hrow).trans hcfg, (congrArg State.handler hrow).trans hhandler, (congrArg State.cmds hrow).trans hcmds,
    (congrArg State.resps hrow).trans hresps⟩
  · obtain ⟨hmac, hip, hport, hinited⟩ := opRow_identity hi s t
    exact ⟨(congrArg State.mac hrow).trans hmac, (congrArg State.ip hrow).trans hip, (congrArg State.port hrow).trans hport,
      (congrArg State.inited hrow).trans hinited⟩
  · obtain ⟨hhlen, hdlen⟩ := opRow_session hi s t
    exact ⟨(congrArg State.hlen hrow).trans hhlen, (congrArg State.dlen hrow).trans hdlen⟩
  · obtain ⟨hrxlen, hrx⟩ := opRow_link hi s t
    exact ⟨(congrArg State.rxlen hrow).trans hrxlen, (congrArg State.rx hrow).trans hrx⟩

/-- Settles O11, from the order of the checks. -/
theorem initialisationGuards : Obligations.InitialisationGuards := by
  intro i s hf
  refine ⟨fun hi hs => ⟨_, exec_eq i s, ?_⟩, fun hi hs => ?_, fun hi hs => ?_⟩
  · cases i with
    | init mac ip port => simp [hf, hs, isInit, opBody]
    | _ => cases hi
  · simp [exec_eq, hf, hs, hi, guardFault, raise_of_clear, Fault.code]
  · simp [exec_eq, hf, hs, hi, guardFault, raise_of_clear, Fault.code]

/-- Settles O14: nothing is stored at any offset after reset, so every byte reads as its free value. -/
theorem resetLeaves : Obligations.ResetLeaves := fun _ =>
  ⟨rfl, rfl, rfl, rfl, rfl, rfl, rfl, rfl, fun _ => rfl⟩

/-- Settles O15: every list is empty and every register 0. -/
theorem invariantAtReset : Obligations.InvariantAtReset := fun cfg =>
  ⟨State.resetWith_buf_wf cfg, fun _ hx => absurd hx List.not_mem_nil, Nat.zero_le _, ⟨rfl, Nat.zero_le _, Nat.zero_le _⟩,
    Nat.two_pow_pos _, Nat.zero_le _, fun _ hx => absurd hx List.not_mem_nil, fun _ hx => absurd hx List.not_mem_nil⟩

end Sys2Proof.Proofs
end

section
/-! PROOFS. The invariant of NPE is kept by every step (R23, R33, R60, R61, R123, R291, R305, R306). -/

namespace Sys2Proof.Machine

open Sys2Proof.Claims

/-! ### The parts of the invariant under each write -/

theorem State.Inv.wf {s : State} (h : s.Inv) : s.buf.wf := h.1

theorem State.Inv.inside {s : State} (h : s.Inv) : s.buf.inside s.cap := h.2.1

theorem State.Inv.sumLegal {s : State} (h : s.Inv) : s.sum < 2 ^ s.cfg.accW.val := by
  obtain ⟨-, -, -, -, hsum, -⟩ := h
  exact hsum

theorem State.Inv.withCommands {s : State} (h : s.Inv) (rest : List (List Byte)) : (s.withCommands rest).Inv := h

theorem State.Inv.withRes {s : State} (h : s.Inv) (v : U16) : State.Inv { s with res := v } := h

theorem State.Inv.raise {s : State} (h : s.Inv) (f : Fault) : (raise f s).Inv := by
  obtain ⟨hwf, hinside, hfault, hsession, hsum, hrxlen, hframes, hresps⟩ := h
  have hcode : (Machine.raise f s).faultLegal := by
    rw [State.faultLegal, raise_fault]
    split
    · exact f.code_le
    · exact hfault
  rw [raise_eq_with_fault] at hcode ⊢
  exact ⟨hwf, hinside, hcode, hsession, hsum, hrxlen, hframes, hresps⟩

theorem State.Inv.respond {s : State} (h : s.Inv) : s.respond.Inv := by
  obtain ⟨hwf, hinside, hfault, hsession, hsum, hrxlen, hframes, hresps⟩ := h
  refine ⟨hwf, hinside, hfault, hsession, hsum, hrxlen, hframes, fun r hr => ?_⟩
  rw [State.respond_resps, List.mem_append, List.mem_singleton] at hr
  obtain hold | rfl := hr
  · exact hresps r hold
  · rfl

theorem State.Inv.withBuf {s : State} (h : s.Inv) {m : Memory} (hwf : m.wf) (hinside : m.inside s.cap) :
    State.Inv { s with buf := m } := by
  obtain ⟨-, -, hrest⟩ := h
  exact ⟨hwf, hinside, hrest⟩

theorem State.Inv.withSum {s : State} (h : s.Inv) {x : Nat} (hx : x < 2 ^ s.cfg.accW.val) : State.Inv { s with sum := x } := by
  obtain ⟨hwf, hinside, hfault, hsession, -, hrxlen, hframes, hresps⟩ := h
  exact ⟨hwf, hinside, hfault, hsession, hx, hrxlen, hframes, hresps⟩

theorem State.Inv.send {s : State} (h : s.Inv) {n : Nat} (hpos : 1 ≤ n) (hcap : n ≤ s.cap) : (s.send n).Inv := by
  obtain ⟨hwf, hinside, hfault, hsession, hsum, hrxlen, hframes, hresps⟩ := h
  refine ⟨hwf, hinside, hfault, hsession, hsum, hrxlen, fun f hf => ?_, hresps⟩
  rw [State.send_txlog, List.mem_append, List.mem_singleton] at hf
  obtain hold | rfl := hf
  · exact hframes f hold
  · rw [Memory.length_slice]
    exact ⟨hpos, hcap⟩

/-- A transcoder that writes a frame and sends it (R180). -/
theorem State.Inv.sendFrame {s : State} (h : s.Inv) {m : Memory} (hwf : m.wf) (hinside : m.inside s.cap) {x : Nat}
    (hx : x < 2 ^ s.cfg.accW.val) {n : Nat} (hpos : 1 ≤ n) (hcap : n ≤ s.cap) :
    (State.send n { s with buf := m, sum := x }).Inv :=
  ((h.withBuf hwf hinside).withSum hx).send hpos hcap

/-- The end of every TCP transcoder (R153, R180). -/
theorem State.Inv.tcpSend {s : State} (h : s.Inv) {z : Memory} (hwf : z.wf) (hinside : z.inside s.cap) (len : Nat) {n : Nat}
    (hpos : 1 ≤ n) (hcap : n ≤ s.cap) : (s.tcpSend z len n).Inv :=
  have hfield : TCP_CSUM + 2 ≤ s.cap := Nat.le_trans (by decide) s.cap_ge
  h.sendFrame (Memory.wf_storeCksum hwf _ _ _ _ _) (Memory.inside_storeCksum hinside _ _ _ _ hfield) (foldedSum_lt _ _ _) hpos hcap

theorem State.Inv.linkReceive {s : State} (h : s.Inv) : s.linkReceive.Inv := by
  obtain ⟨hwf, hinside, hfault, hsession, hsum, -, hframes, hresps⟩ := h
  refine ⟨State.linkReceive_wf hwf, State.linkReceive_inside hinside, hfault, hsession, hsum, ?_, hframes, hresps⟩
  rw [State.rxlenLegal, State.linkReceive_rxlen_toNat]
  exact s.arriving_length

/-- `HLEN` as `SES.DERIVE` computes it is in 0, 4, ..., 60 (R23). -/
theorem headerLength_legal (m : Memory) : (headerLength m).toNat % 4 = 0 ∧ (headerLength m).toNat ≤ 60 := by
  unfold headerLength
  generalize (m.rd TCP_HLEN).extractLsb' 4 4 = x
  revert x
  decide

/-- `DLEN` as `SES.DERIVE` computes it is in 0..32767 (R23, R252). -/
theorem dataLength_legal (totlen hlen : U16) : (dataLength totlen hlen).toNat ≤ 32767 := by
  unfold dataLength
  dsimp only
  split
  · rw [BitVec.toNat_ofInt]
    omega
  · exact Nat.zero_le _

theorem State.Inv.derived {s : State} (h : s.Inv) : s.derived.Inv := by
  obtain ⟨hwf, hinside, hfault, -, hsum, hrxlen, hframes, hresps⟩ := h
  obtain ⟨hmod, hle⟩ := headerLength_legal s.buf
  exact ⟨hwf, hinside, hfault, ⟨hmod, hle, dataLength_legal _ _⟩, hsum, hrxlen, hframes, hresps⟩

/-! ### Every operation keeps the invariant -/

section
variable {s : State}

theorem State.Inv.arpReplied (h : s.Inv) : (State.send 42 { s with buf := arpReplyFrame s.mac s.ip s.buf }).Inv :=
  h.sendFrame (wf_arpReplyFrame h.wf _ _) (inside_arpReplyFrame s.cap_ge h.inside _ _) h.sumLegal (by decide)
    (Nat.le_trans (by decide) s.cap_ge)

theorem State.Inv.echoed (h : s.Inv) {n : Nat} (hpos : 1 ≤ n) (hcap : n ≤ s.cap) : (State.send n { s with
    buf := icmpReplyFrame s.cfg s.mac s.ip s.buf
    sum := (ipZeroed s.cfg (icmpAddressed s.mac s.ip s.buf)).sumOf s.cfg .ip IP_VIHL 20 }).Inv :=
  h.sendFrame (wf_icmpReplyFrame h.wf _ _ _) (inside_icmpReplyFrame s.cap_ge h.inside _ _ _) (foldedSum_lt _ _ _) hpos hcap

theorem State.Inv.synacked (h : s.Inv) : (State.tcpSend { s with seq := s.seq + s.cfg.seqStep }
    (synackZeroed s.cfg s.mac s.ip s.port s.seq s.buf) 32 58).Inv :=
  State.Inv.tcpSend (s := { s with seq := s.seq + s.cfg.seqStep }) h (wf_synackZeroed h.wf _ _ _ _ _)
    (inside_synackZeroed s.cap_ge h.inside _ _ _ _ _) 32 (by decide) s.cap_ge

theorem State.Inv.acked (h : s.Inv) : s.acked.Inv :=
  h.tcpSend (wf_ackZeroed h.wf _ _ _ _ _) (inside_ackZeroed s.cap_ge h.inside _ _ _ _ _) 28 (by decide)
    (Nat.le_trans (by decide) s.cap_ge)

theorem State.Inv.answered (h : s.Inv) {dlen : U16} (hcap : 54 + dlen.toNat ≤ s.cap) : (s.answered dlen).Inv :=
  h.tcpSend (wf_ackdataZeroed h.wf _ _) (inside_ackdataZeroed s.cap_ge h.inside _ _) _ (by omega) hcap

/-- Rule 8 of `DISPATCH` (R276). -/
theorem State.Inv.exchanged (h : s.Inv) (req : List Byte) {resp : List Byte} (hcap : 54 + resp.length ≤ s.cap) :
    ((s.filled req resp).acked.answered (u16 resp.length)).Inv := by
  have hfilled : (s.filled req resp).Inv :=
    State.Inv.withBuf (s := s.logRequest req) h (Memory.wf_wrBytes _ h.wf _) (Memory.inside_wrBytes _ h.inside hcap)
  have hlen : (u16 resp.length).toNat = resp.length := u16_toNat (by have := s.cap_le; omega)
  exact hfilled.acked.answered (by rw [hlen]; exact hcap)

theorem opCksum_inv (h : s.Inv) (kind : Kind) (off len : U16) : (opCksum kind off len s).ends State.Inv := by
  rcases opCksum_cases kind off len s with ⟨-, -, e⟩ | ⟨-, -, -, e⟩ | ⟨-, -, e⟩ <;> rw [e]
  · exact h
  · exact h
  · exact h.withSum (foldedSum_lt _ _ _)

theorem DispatchEnd.inv {run : Run} (h : s.Inv) (hrun : DispatchEnd s run) : run.ends State.Inv := by
  cases hrun with
  | dropped => exact h
  | arpReply => exact h.arpReplied
  | echoReply hn hcap => exact h.echoed (by bv_omega) hcap
  | synack => exact h.synacked
  | bareFin => exact h.derived.acked
  | bareAck => exact h.derived
  | requestBeyond => exact h.derived
  | responseBeyond => exact h.derived
  | exchange req resp hcap => exact h.derived.exchanged req hcap

/-- Every operation that passes its checks ends in a state that meets the invariant. -/
theorem opBody_inv (h : s.Inv) (i : Instr) : (opBody i s).ends State.Inv := by
  have hwf := h.wf
  have hinside := h.inside
  have hcap := s.cap_ge
  cases i with
  | init | clsArp | clsIp4 | clsArprply => exact h
  | cksumIp off len => exact opCksum_inv h .ip off len
  | cksumUdp off len => exact opCksum_inv h .udp off len
  | cksumTcp off len => exact opCksum_inv h .tcp off len
  | arpReply => exact h.arpReplied
  | arpReq dmac tip =>
    exact h.sendFrame (wf_arpReqFrame hwf _ _ _ _) (inside_arpReqFrame hcap hinside _ _ _ _) h.sumLegal (by decide)
      (Nat.le_trans (by decide) hcap)
  | icmpReply len =>
    show (opIcmpReply len s).ends _
    rcases opIcmpReply_cases len s with ⟨-, e⟩ | ⟨-, -, e⟩ | ⟨hn, hle, e⟩ <;> rw [e]
    · exact h
    · exact h
    · exact h.echoed (by bv_omega) hle
  | udpReply sport data =>
    show (opUdpReply sport data s).ends _
    rcases opUdpReply_cases sport data s with ⟨-, e⟩ | ⟨hle, e⟩ <;> rw [e]
    · exact h
    · exact h.sendFrame (Memory.wf_storeCksum (wf_udpZeroed hwf _ _ _ _ _) _ _ _ _ _)
        (Memory.inside_storeCksum (inside_udpZeroed hcap hinside _ _ _ _ _ hle) _ _ _ _ (Nat.le_trans (by decide) hcap))
        (foldedSum_lt _ _ _) (by omega) hle
  | tcpSynack => exact h.synacked
  | tcpAck =>
    show (opTcpAck s).ends _
    rcases opTcpAck_cases s with ⟨-, e⟩ | ⟨-, e⟩ <;> rw [e]
    · exact h.acked
    · exact h
  | tcpAckdata dlen =>
    show (opTcpAckdata dlen s).ends _
    rcases opTcpAckdata_cases dlen s with ⟨-, e⟩ | ⟨hle, e⟩ <;> rw [e]
    · exact h
    · exact h.answered hle
  | tcpClient dmac dip dport sport flags mss clrack ackadv dlen =>
    show (opTcpClient dmac dip dport sport flags mss clrack ackadv dlen s).ends _
    rcases opTcpClient_cases dmac dip dport sport flags mss clrack ackadv dlen s with ⟨-, e⟩ | ⟨hle, e⟩ <;> rw [e]
    · exact h
    · exact State.Inv.tcpSend (s := { s with ipid := _, seq := _ }) h (wf_clientZeroed hwf _ _ _ _ _ _ _ _ _)
        (inside_clientZeroed hinside _ _ _ _ _ _ _ _ _) _ (by omega) hle
  | fill pos text =>
    show (opFill pos text s).ends _
    rcases opFill_cases pos text s with ⟨-, e⟩ | ⟨hle, e⟩ <;> rw [e]
    · exact h
    · exact h.withBuf (Memory.wf_wrBytes _ hwf _) (Memory.inside_wrBytes _ hinside hle)
  | sesDerive => exact h.derived
  | sesPoff =>
    show (opSesPoff s).ends _
    rcases opSesPoff_cases s with ⟨-, e⟩ | ⟨-, e⟩ <;> rw [e] <;> exact h
  | dispatch => exact (opDispatch_end s).inv h.linkReceive
  | recv => exact h.linkReceive

end

end Sys2Proof.Machine

namespace Sys2Proof.Proofs

open Sys2Proof.Machine

/-- Settles O16: taking a command, every operation, recording a fault, writing `RES` and responding each keep the invariant. -/
theorem invariantKeptByStep : Obligations.InvariantKeptByStep := fun _ _ hs h =>
  step_keeps (fun _ rest hu => hu.withCommands rest) (fun _ f hu => hu.raise f) (fun _ v hu => hu.withRes v)
    (fun _ hu => hu.respond) (fun i _ hu _ _ => opBody_inv hu i) hs h

end Sys2Proof.Proofs
end

section
/-! PROOFS. No step depends on a register the spec leaves unspecified (R45): two states that agree where the operations read
step to states that agree so. -/

namespace Sys2Proof.Machine

open Sys2Proof.Claims

/-! ### Agreement, before and after initialisation -/

/-- Agreement where the identity is read: `HLEN` and `DLEN` may differ while `SESV = 0`, `SUM` always. -/
def State.AgreeReady (s s' : State) : Prop :=
  ∃ hlen dlen sum, s' = { s with hlen := hlen, dlen := dlen, sum := sum } ∧ (s.sesv = true → hlen = s.hlen ∧ dlen = s.dlen)

theorem agreeReady_unseen : Unseen State.AgreeReady where
  reads := by rintro s _ ⟨hlen, dlen, sum, rfl, -⟩; exact ⟨rfl, rfl, rfl, rfl, rfl, rfl, rfl, rfl⟩
  session := by rintro s _ ⟨hlen, dlen, sum, rfl, hses⟩; exact hses
  buf := by rintro s _ m ⟨hlen, dlen, sum, rfl, hses⟩; exact ⟨hlen, dlen, sum, rfl, hses⟩
  sum := by rintro s _ x ⟨hlen, dlen, sum, rfl, hses⟩; exact ⟨hlen, dlen, x, rfl, hses⟩
  counters := by rintro s _ v b ⟨hlen, dlen, sum, rfl, hses⟩; exact ⟨hlen, dlen, sum, rfl, hses⟩
  send := by rintro s _ n ⟨hlen, dlen, sum, rfl, hses⟩; exact ⟨hlen, dlen, sum, rfl, hses⟩
  derive := by rintro s _ h d ⟨hlen, dlen, sum, rfl, hses⟩; exact ⟨h, d, sum, rfl, fun _ => ⟨rfl, rfl⟩⟩

section
variable {s s' : State}

theorem State.AgreeReady.logRequest (h : s.AgreeReady s') (req : List Byte) :
    (s.logRequest req).AgreeReady (s'.logRequest req) := by
  obtain ⟨hlen, dlen, sum, rfl, hses⟩ := h
  exact ⟨hlen, dlen, sum, rfl, hses⟩

/-- A receive clears `SESV`, so the session may differ after it (R24). -/
theorem State.AgreeReady.linkReceive (h : s.AgreeReady s') : s.linkReceive.AgreeReady s'.linkReceive := by
  obtain ⟨hlen, dlen, sum, rfl, -⟩ := h
  exact ⟨hlen, dlen, sum, rfl, fun hv => by cases hv⟩

theorem State.AgreeReady.derived (h : s.AgreeReady s') : s.derived.AgreeReady s'.derived := by
  obtain ⟨hlen, dlen, sum, rfl, -⟩ := h
  exact ⟨_, _, sum, rfl, fun _ => ⟨rfl, rfl⟩⟩

/-! ### `DISPATCH` keeps agreement -/

/-- Rule 8: `SESV = 1` there, so the request is the same. -/
theorem dispatchData_agree (p : U16) (hv : s.sesv = true) (h : s.AgreeReady s') :
    Run.Rel State.AgreeReady (dispatchData p s) (dispatchData p s') := by
  obtain ⟨hlen, dlen, sum, rfl, hses⟩ := h
  obtain ⟨rfl, rfl⟩ := hses hv
  have hagree : s.AgreeReady { s with sum := sum } := ⟨_, _, sum, rfl, hses⟩
  have hfill (req resp : List Byte) := opBody_rel agreeReady_unseen (i := .fill 0#16 resp) rfl rfl (hagree.logRequest req)
  exact .ite (fun _ => .raised _ hagree) fun _ => .outcome (.andThen (hfill _ _)
    (fun _ _ _ hu => .andThen (opBody_rel agreeReady_unseen (i := .tcpAck) rfl rfl hu)
      (fun _ _ _ hw => opBody_rel agreeReady_unseen (i := .tcpAckdata _) rfl rfl hw) id) id) _

/-- Rules 6 to 8 as one equation, the session being the one just derived. -/
theorem dispatchAck_eq (s : State) : dispatchAck s =
    if s.derived.dlen = 0#16 then (if s.tcpFlag FIN then (opTcpAck s.derived).outcome 6#16 else .done 7#16 s.derived)
    else dispatchData (34#16 + s.derived.hlen) s.derived := by
  have hack : opTcpAck s.derived = .done 54#16 s.derived.acked := rfl
  rcases dispatchAck_cases s with ⟨hd, hfin, e⟩ | ⟨hd, hfin, e⟩ | ⟨hd, -, e⟩
  · rw [e, if_pos hd, if_pos hfin, hack, Run.outcome_done]
  · rw [e, if_pos hd, hfin]; rfl
  · rw [e, if_neg hd]

theorem dispatchAck_agree (h : s.AgreeReady s') : Run.Rel State.AgreeReady (dispatchAck s) (dispatchAck s') := by
  have hderived := h.derived
  obtain ⟨hlen, dlen, sum, rfl, -⟩ := h
  rw [dispatchAck_eq, dispatchAck_eq]
  exact .ite (fun _ => .ite
    (fun _ => .outcome (opBody_rel agreeReady_unseen (i := .tcpAck) rfl rfl hderived) _) fun _ => .done _ hderived)
    fun _ => dispatchData_agree _ rfl hderived

theorem dispatchFrame_agree (n : U16) (h : s.AgreeReady s') :
    Run.Rel State.AgreeReady (dispatchFrame n s) (dispatchFrame n s') := by
  have hbody (i : Instr) := opBody_rel agreeReady_unseen (i := i) (h := h)
  have hack := dispatchAck_agree h
  obtain ⟨hlen, dlen, sum, rfl, -⟩ := id h
  exact .ite (fun _ => .outcome (hbody .arpReply rfl rfl) _) fun _ => .ite (fun _ => .done _ h) fun _ =>
    .ite (fun _ => .outcome (hbody (.icmpReply n) rfl rfl) _) fun _ =>
    .ite (fun _ => .ite (fun _ => .outcome (hbody .tcpSynack rfl rfl) _) fun _ =>
      .ite (fun _ => hack) fun _ => .done _ h) fun _ => .done _ h

theorem opDispatch_agree (h : s.AgreeReady s') : Run.Rel State.AgreeReady (opDispatch s) (opDispatch s') := by
  have hreceived := h.linkReceive
  obtain ⟨hlen, dlen, sum, rfl, -⟩ := h
  exact .ite (fun _ => .done _ hreceived) fun _ => dispatchFrame_agree _ hreceived

/-- Every operation but `INIT` keeps agreement. -/
theorem opBody_agree {i : Instr} (hi : isInit i = false) (h : s.AgreeReady s') :
    Run.Rel State.AgreeReady (opBody i s) (opBody i s') := by
  cases hr : receives i with
  | false => exact opBody_rel agreeReady_unseen hi hr h
  | true =>
    cases i with
    | dispatch => exact opDispatch_agree h
    | recv =>
      have hreceived := h.linkReceive
      obtain ⟨hlen, dlen, sum, rfl, -⟩ := h
      exact .done _ hreceived
    | _ => cases hr

end

end Sys2Proof.Machine

namespace Sys2Proof.Claims

open Sys2Proof.Machine

/-- Agreement with the registers that may differ named. -/
theorem agreeWhereRead_iff (s s' : State) : AgreeWhereRead s s' ↔ ∃ mac ip port hlen dlen sum,
    s' = { s with mac := mac, ip := ip, port := port, hlen := hlen, dlen := dlen, sum := sum } ∧
    (s.inited = true → mac = s.mac ∧ ip = s.ip ∧ port = s.port) ∧ (s.sesv = true → hlen = s.hlen ∧ dlen = s.dlen) := by
  constructor
  · rintro ⟨heq, hid, hses⟩
    exact ⟨_, _, _, _, _, _, heq, hid, hses⟩
  · rintro ⟨mac, ip, port, hlen, dlen, sum, rfl, hid, hses⟩
    exact ⟨rfl, hid, hses⟩

section
variable {s s' : State}

theorem AgreeWhereRead.ready (h : AgreeWhereRead s s') (hi : s.inited = true) : s.AgreeReady s' := by
  obtain ⟨mac, ip, port, hlen, dlen, sum, rfl, hid, hses⟩ := (agreeWhereRead_iff s s').1 h
  obtain ⟨rfl, rfl, rfl⟩ := hid hi
  exact ⟨hlen, dlen, sum, rfl, hses⟩

theorem AgreeWhereRead.of_ready (h : s.AgreeReady s') : AgreeWhereRead s s' := by
  obtain ⟨hlen, dlen, sum, rfl, hses⟩ := h
  exact ⟨rfl, fun _ => ⟨rfl, rfl, rfl⟩, hses⟩

theorem AgreeWhereRead.withCommands (h : AgreeWhereRead s s') (rest : List (List Byte)) :
    AgreeWhereRead (s.withCommands rest) (s'.withCommands rest) := by
  obtain ⟨mac, ip, port, hlen, dlen, sum, rfl, hid, hses⟩ := (agreeWhereRead_iff s s').1 h
  exact ⟨rfl, hid, hses⟩

theorem AgreeWhereRead.withRes (h : AgreeWhereRead s s') (v : U16) :
    AgreeWhereRead { s with res := v } { s' with res := v } := by
  obtain ⟨mac, ip, port, hlen, dlen, sum, rfl, hid, hses⟩ := (agreeWhereRead_iff s s').1 h
  exact ⟨rfl, hid, hses⟩

theorem AgreeWhereRead.raise (h : AgreeWhereRead s s') (f : Fault) : AgreeWhereRead (raise f s) (raise f s') := by
  obtain ⟨mac, ip, port, hlen, dlen, sum, rfl, hid, hses⟩ := (agreeWhereRead_iff s s').1 h
  unfold Machine.raise
  split
  · exact ⟨rfl, hid, hses⟩
  · exact ⟨rfl, hid, hses⟩

theorem AgreeWhereRead.respond (h : AgreeWhereRead s s') : AgreeWhereRead s.respond s'.respond := by
  obtain ⟨mac, ip, port, hlen, dlen, sum, rfl, hid, hses⟩ := (agreeWhereRead_iff s s').1 h
  exact ⟨rfl, hid, hses⟩

/-- `INIT` writes the identity, so that it agrees from then on. -/
theorem opBody_init_agree {i : Instr} (hi : isInit i = true) (h : AgreeWhereRead s s') :
    Run.Rel AgreeWhereRead (opBody i s) (opBody i s') := by
  obtain ⟨mac, ip, port, hlen, dlen, sum, rfl, -, hses⟩ := (agreeWhereRead_iff s s').1 h
  cases i with
  | init => exact .done _ ⟨rfl, fun _ => ⟨rfl, rfl, rfl⟩, hses⟩
  | _ => cases hi

theorem exec_agree (i : Instr) (h : AgreeWhereRead s s') :
    ∃ t t', exec i s = .next t ∧ exec i s' = .next t' ∧ AgreeWhereRead t t' := by
  have hshared : s'.fault = s.fault ∧ s'.inited = s.inited := by
    obtain ⟨mac, ip, port, hlen, dlen, sum, rfl, -, -⟩ := (agreeWhereRead_iff s s').1 h
    exact ⟨rfl, rfl⟩
  refine exec_rel i h hshared.1 hshared.2 (fun f _ _ hu => hu.raise f) (fun v _ _ hu => hu.withRes v) fun hguard => ?_
  cases hi : isInit i with
  | true => exact opBody_init_agree hi h
  | false => exact (opBody_agree hi (h.ready (by simpa [hi] using hguard))).mono AgreeWhereRead.of_ready

end

end Sys2Proof.Claims

namespace Sys2Proof.Proofs

open Sys2Proof.Machine Sys2Proof.Claims

/-- Settles O17: agreement is kept by taking a command, by each operation under the checks of R126, by a fault raised and by
the response. -/
theorem unspecifiedRegistersNeverRead : Obligations.UnspecifiedRegistersNeverRead := by
  intro s s' h
  have hcmds : s'.cmds = s.cmds := by
    obtain ⟨mac, ip, port, hlen, dlen, sum, rfl, -, -⟩ := (agreeWhereRead_iff s s').1 h
    rfl
  cases hc : s.cmds with
  | nil => exact ⟨s, s', step_idle hc, step_idle (hcmds.trans hc), h⟩
  | cons c rest =>
    have hc' := hcmds.trans hc
    have htaken := h.withCommands rest
    cases hd : decode c with
    | error e =>
      refine ⟨_, _, step_illegal hc hd, step_illegal hc' hd, ?_⟩
      rw [illegal_eq_raise, illegal_eq_raise]
      exact (htaken.raise .illegalCommand).respond
    | ok i =>
      obtain ⟨t, t', ht, ht', hagree⟩ := exec_agree i htaken
      exact ⟨_, _, step_decoded hc hd ht, step_decoded hc' hd ht', hagree.respond⟩

end Sys2Proof.Proofs
end

section
/-! PROOFS. The command encoding (30_encoding.md): what each operand format reads, decoding and encoding as inverses, which
commands are legal, and how a command is answered. -/

namespace Sys2Proof

open Sys2Proof.Machine Sys2Proof.Claims

/-! ### The opcode map (R122) -/

@[simp] theorem Op.ofByte_byte (o : Op) : Op.ofByte o.byte = some o := by cases o <;> rfl

theorem Op.byte_of_ofByte {b : Byte} {o : Op} (h : Op.ofByte b = some o) : o.byte = b := by
  simpa using List.find?_some h

theorem Op.byte_inj {o o' : Op} : o.byte = o'.byte ↔ o = o' :=
  ⟨fun h => Option.some.inj (by rw [← ofByte_byte, h, ofByte_byte]), congrArg Op.byte⟩

/-- The table of the claims has the length of the format at every opcode byte. -/
theorem commandLength_byte (o : Op) (n : Nat) : commandLength o.byte.toNat n = some (o.format.length n) := by
  cases o <;> rfl

/-- The table of the claims has no other opcode byte. -/
theorem commandLength_reserved {b : Byte} (h : Op.ofByte b = none) (n : Nat) : commandLength b.toNat n = none := by
  have hb : Op.ofByte (BitVec.ofNat 8 b.toNat) = none := by rwa [BitVec.ofNat_toNat, BitVec.setWidth_eq]
  unfold commandLength
  split
  case h_21 => rfl
  all_goals
    rename_i hx
    rw [hx] at hb
    cases hb

/-! ### The operand formats (R121) -/

/-- Format `Z`. -/
theorem readZ_eq_some {args : List Byte} {x : Unit} : readZ args = some x ↔ args = [] := by
  cases args <;> simp [readZ]

/-- Format `L`. -/
theorem readL_eq_some {args : List Byte} {x : U16} : readL args = some x ↔ args = bytes16 x := by
  constructor
  · fun_cases readL args
    · rintro ⟨⟩
      simp [bytes16]
    · nofun
  · rintro rfl
    simp [readL, bytes16]

/-- Format `K`. -/
theorem readK_eq_some {args : List Byte} {x : U16 × U16} : readK args = some x ↔ args = bytes16 x.1 ++ bytes16 x.2 := by
  constructor
  · fun_cases readK args
    · rintro ⟨⟩
      simp [bytes16]
    · nofun
  · rintro rfl
    simp [readK, bytes16]

/-- Format `I`. -/
theorem readI_eq_some {args : List Byte} {x : Mac × Ip4 × Byte} :
    readI args = some x ↔ args = x.1.bytes ++ x.2.1.bytes ++ [x.2.2] := by
  constructor
  · fun_cases readI args
    · rintro ⟨⟩
      rfl
    · nofun
  · rintro rfl
    rfl

/-- Format `A`. -/
theorem readA_eq_some {args : List Byte} {x : Mac × Ip4} : readA args = some x ↔ args = x.1.bytes ++ x.2.bytes := by
  constructor
  · fun_cases readA args
    · rintro ⟨⟩
      rfl
    · nofun
  · rintro rfl
    rfl

/-- Formats `U` and `F`: the count read is the length of the byte string, which therefore is a `u16`. -/
theorem readCounted_eq_some {args : List Byte} {x : U16 × List Byte} :
    readCounted args = some x ↔ args = countedBytes x.1 x.2 ∧ countFits x.2 = true := by
  constructor
  · fun_cases readCounted args
    case case1 a b c d bytes hn =>
      rintro ⟨⟩
      have hu : u16 bytes.length = be16 c d := by rw [hn, u16, BitVec.ofNat_toNat, BitVec.setWidth_eq]
      refine ⟨?_, ?_⟩
      · simp [countedBytes, bytes16, hu]
      · have := (be16 c d).isLt
        simp only [countFits, decide_eq_true_eq]
        omega
    all_goals nofun
  · rintro ⟨rfl, hn⟩
    have hn : x.2.length < 65536 := of_decide_eq_true hn
    have hu : (u16 x.2.length).toNat = x.2.length := u16_toNat (by omega)
    simp [countedBytes, bytes16, readCounted, hu]

/-- The twenty operand bytes of format `C` (R121). -/
def ClientArgs.bytes (x : ClientArgs) : List Byte :=
  x.dmac.bytes ++ x.dip.bytes ++ bytes16 x.dport ++ bytes16 x.sport ++ [x.flags, x.ctl] ++ bytes16 x.ackadv ++ bytes16 x.dlen

/-- Format `C`. -/
theorem readC_eq_some {args : List Byte} {x : ClientArgs} : readC args = some x ↔ args = x.bytes := by
  constructor
  · fun_cases readC args
    · rintro ⟨⟩
      simp [ClientArgs.bytes, bytes16, Mac.bytes, Ip4.bytes]
    · nofun
  · rintro rfl
    simp [readC, ClientArgs.bytes, bytes16, Mac.bytes, Ip4.bytes]

/-- Bits 7 to 2 of `ctl` are 0 exactly below 4. -/
theorem ctlReserved_eq_false {ctl : Byte} : ctlReserved ctl = false ↔ ctl.toNat < 4 := by
  revert ctl
  decide

/-- `ctl` with its reserved bits 0 is its two defined bits. -/
theorem ctlByte_of_not_reserved {ctl : Byte} (h : ctlReserved ctl = false) :
    ctlByte (ctl.getLsbD 0) (ctl.getLsbD 1) = ctl := by
  revert ctl
  decide

theorem ctlByte_fields (mss clrack : Bool) :
    ctlReserved (ctlByte mss clrack) = false ∧ (ctlByte mss clrack).getLsbD 0 = mss ∧
      (ctlByte mss clrack).getLsbD 1 = clrack := by
  cases mss <;> cases clrack <;> decide

/-! ### Which lengths each format reads (R125) -/

/-- A format whose operands take `n` bytes reads exactly the byte strings of length `n`. -/
theorem isSome_read_iff_length {α : Type} {read : List Byte → Option α} {operands : α → List Byte} {n : Nat}
    (hread : ∀ {args x}, read args = some x ↔ args = operands x) (hlen : ∀ x, (operands x).length = n)
    (hsome : ∀ args, args.length = n → (read args).isSome = true) (args : List Byte) :
    (read args).isSome = true ↔ args.length = n := by
  refine ⟨fun h => ?_, hsome args⟩
  obtain ⟨x, hx⟩ := Option.isSome_iff_exists.1 h
  rw [hread.1 hx, hlen]

theorem readZ_isSome : ∀ args : List Byte, (readZ args).isSome = true ↔ args.length = 0 :=
  isSome_read_iff_length readZ_eq_some (fun _ => rfl) fun | [], _ => rfl

theorem readL_isSome : ∀ args : List Byte, (readL args).isSome = true ↔ args.length = 2 :=
  isSome_read_iff_length readL_eq_some (fun _ => rfl) fun | [_, _], _ => rfl

theorem readK_isSome : ∀ args : List Byte, (readK args).isSome = true ↔ args.length = 4 :=
  isSome_read_iff_length readK_eq_some (fun _ => rfl) fun | [_, _, _, _], _ => rfl

theorem readI_isSome : ∀ args : List Byte, (readI args).isSome = true ↔ args.length = 11 :=
  isSome_read_iff_length readI_eq_some (fun _ => rfl) fun | [_, _, _, _, _, _, _, _, _, _, _], _ => rfl

theorem readA_isSome : ∀ args : List Byte, (readA args).isSome = true ↔ args.length = 10 :=
  isSome_read_iff_length readA_eq_some (fun _ => rfl) fun | [_, _, _, _, _, _, _, _, _, _], _ => rfl

theorem readC_isSome : ∀ args : List Byte, (readC args).isSome = true ↔ args.length = 20 :=
  isSome_read_iff_length readC_eq_some (fun _ => rfl) fun
    | [_, _, _, _, _, _, _, _, _, _, _, _, _, _, _, _, _, _, _, _], _ => rfl

/-- Formats `U` and `F`: the count is the third and fourth operand byte. -/
theorem readCounted_isSome : ∀ args : List Byte,
    (readCounted args).isSome = true ↔ args.length = 4 + (be16 (args.getD 2 0#8) (args.getD 3 0#8)).toNat
  | [] | [_] | [_, _] | [_, _, _] => by
    simp [readCounted]
    omega
  | _ :: _ :: _ :: _ :: _ => by
    simp [readCounted]
    omega

/-! ### Decoding one operation -/

/-- Why an operation with fixed operands decodes: its format read them. -/
theorem elim_map_eq_ok {α : Type} {x : Option α} {f : α → Instr} {e : DecodeError} {i : Instr} :
    (x.map f).elim (.error e) .ok = (.ok i : Except DecodeError Instr) ↔ ∃ a, x = some a ∧ f a = i := by
  cases x <;> simp

theorem exists_elim_map_eq_ok {α : Type} {x : Option α} {f : α → Instr} {e : DecodeError} :
    (∃ i, (x.map f).elim (.error e) .ok = (.ok i : Except DecodeError Instr)) ↔ x.isSome = true := by
  cases x <;> simp

/-- The operation of a `TCP.CLIENT` command (R121). -/
def ClientArgs.instr (x : ClientArgs) : Instr :=
  .tcpClient x.dmac x.dip x.dport x.sport x.flags (x.ctl.getLsbD 0) (x.ctl.getLsbD 1) x.ackadv x.dlen

/-- Why a `TCP.CLIENT` command decodes (R124). -/
theorem decodeOperands_tcpClient_eq_ok {args : List Byte} {i : Instr} :
    decodeOperands .tcpClient args = .ok i ↔ ∃ x, readC args = some x ∧ ctlReserved x.ctl = false ∧ x.instr = i := by
  cases hx : readC args with
  | none => simp [decodeOperands, hx]
  | some x => cases hc : ctlReserved x.ctl <;> simp [decodeOperands, hx, hc, ClientArgs.instr]

theorem decode_byte_cons (o : Op) (args : List Byte) : decode (o.byte :: args) = decodeOperands o args := by
  simp [decode]

theorem decode_reserved {b : Byte} (h : Op.ofByte b = none) (args : List Byte) :
    decode (b :: args) = .error (.reservedOpcode b) := by
  simp [decode, h]

/-- The operand bytes of a well-formed operation decode to it. -/
theorem decodeOperands_operandBytes {i : Instr} (hwf : i.wellFormed = true) :
    decodeOperands i.op i.operandBytes = .ok i := by
  cases i with
  | init mac ip port => rfl
  | cksumIp off len | cksumUdp off len | cksumTcp off len =>
    have hread : readK (bytes16 off ++ bytes16 len) = some (off, len) := readK_eq_some.2 rfl
    simp [Instr.op, Instr.operandBytes, decodeOperands, hread]
  | clsArp len | clsIp4 len | icmpReply len | tcpAckdata len =>
    have hread : readL (bytes16 len) = some len := readL_eq_some.2 rfl
    simp [Instr.op, Instr.operandBytes, decodeOperands, hread]
  | arpReq dmac tip => rfl
  | udpReply x bytes | fill x bytes => exact elim_map_eq_ok.2 ⟨(x, bytes), readCounted_eq_some.2 ⟨rfl, hwf⟩, rfl⟩
  | tcpClient dmac dip dport sport flags mss clrack ackadv dlen =>
    obtain ⟨hreserved, hmss, hclrack⟩ := ctlByte_fields mss clrack
    refine decodeOperands_tcpClient_eq_ok.2
      ⟨⟨dmac, dip, dport, sport, flags, ctlByte mss clrack, ackadv, dlen⟩, readC_eq_some.2 rfl, hreserved, ?_⟩
    simp only [ClientArgs.instr, hmss, hclrack]
  | clsArprply | arpReply | tcpSynack | tcpAck | sesDerive | sesPoff | dispatch | recv => rfl

/-- Operand bytes that decode are those of exactly the operation they decode to. -/
theorem operandBytes_of_decodeOperands {o : Op} {args : List Byte} {i : Instr} (h : decodeOperands o args = .ok i) :
    i.op = o ∧ i.operandBytes = args ∧ i.wellFormed = true := by
  cases o with
  | init =>
    obtain ⟨x, hx, rfl⟩ := elim_map_eq_ok.1 h
    exact ⟨rfl, (readI_eq_some.1 hx).symm, rfl⟩
  | cksumIp | cksumUdp | cksumTcp =>
    obtain ⟨x, hx, rfl⟩ := elim_map_eq_ok.1 h
    exact ⟨rfl, (readK_eq_some.1 hx).symm, rfl⟩
  | clsArp | clsIp4 | icmpReply | tcpAckdata =>
    obtain ⟨x, hx, rfl⟩ := elim_map_eq_ok.1 h
    exact ⟨rfl, (readL_eq_some.1 hx).symm, rfl⟩
  | arpReq =>
    obtain ⟨x, hx, rfl⟩ := elim_map_eq_ok.1 h
    exact ⟨rfl, (readA_eq_some.1 hx).symm, rfl⟩
  | udpReply | fill =>
    obtain ⟨x, hx, rfl⟩ := elim_map_eq_ok.1 h
    obtain ⟨hargs, hfits⟩ := readCounted_eq_some.1 hx
    exact ⟨rfl, hargs.symm, hfits⟩
  | tcpClient =>
    obtain ⟨x, hx, hctl, rfl⟩ := decodeOperands_tcpClient_eq_ok.1 h
    refine ⟨rfl, ?_, rfl⟩
    rw [readC_eq_some.1 hx, ClientArgs.instr, Instr.operandBytes, ctlByte_of_not_reserved hctl, ClientArgs.bytes]
  | clsArprply | arpReply | tcpSynack | tcpAck | sesDerive | sesPoff | dispatch | recv =>
    obtain ⟨x, hx, rfl⟩ := elim_map_eq_ok.1 h
    exact ⟨rfl, (readZ_eq_some.1 hx).symm, rfl⟩

/-! ### Decoding a command -/

/-- Decoding is the inverse of encoding, in both directions (R124). -/
theorem decode_eq_ok_iff {c : List Byte} {i : Instr} : decode c = .ok i ↔ encode i = c ∧ i.wellFormed = true := by
  constructor
  · intro h
    cases c with
    | nil => cases h
    | cons b args =>
      cases ho : Op.ofByte b with
      | none => simp [decode_reserved ho] at h
      | some o =>
        obtain rfl := Op.byte_of_ofByte ho
        rw [decode_byte_cons] at h
        obtain ⟨rfl, rfl, hwf⟩ := operandBytes_of_decodeOperands h
        exact ⟨rfl, hwf⟩
  · rintro ⟨rfl, hwf⟩
    rw [encode, decode_byte_cons, decodeOperands_operandBytes hwf]

/-- Operand bytes of an operation other than `TCP.CLIENT` decode exactly when they have the length its format requires. -/
theorem exists_decodeOperands_iff {o : Op} (ho : o ≠ .tcpClient) (args : List Byte) :
    (∃ i, decodeOperands o args = .ok i) ↔
      args.length + 1 = o.format.length (be16 (args.getD 2 0#8) (args.getD 3 0#8)).toNat := by
  cases o with
  | init => exact exists_elim_map_eq_ok.trans ((readI_isSome args).trans (by simp [Op.format, Format.length]))
  | cksumIp | cksumUdp | cksumTcp =>
    exact exists_elim_map_eq_ok.trans ((readK_isSome args).trans (by simp [Op.format, Format.length]))
  | clsArp | clsIp4 | icmpReply | tcpAckdata =>
    exact exists_elim_map_eq_ok.trans ((readL_isSome args).trans (by simp [Op.format, Format.length]))
  | arpReq => exact exists_elim_map_eq_ok.trans ((readA_isSome args).trans (by simp [Op.format, Format.length]))
  | udpReply | fill =>
    exact exists_elim_map_eq_ok.trans ((readCounted_isSome args).trans (by simp only [Op.format, Format.length]; omega))
  | tcpClient => cases ho rfl
  | clsArprply | arpReply | tcpSynack | tcpAck | sesDerive | sesPoff | dispatch | recv =>
    exact exists_elim_map_eq_ok.trans ((readZ_isSome args).trans (by simp [Op.format, Format.length]))

/-- Operand bytes of `TCP.CLIENT` decode exactly when there are twenty and the reserved bits of `ctl` are 0. -/
theorem exists_decodeOperands_tcpClient_iff (args : List Byte) :
    (∃ i, decodeOperands .tcpClient args = .ok i) ↔ args.length + 1 = 21 ∧ (args.getD 15 0#8).toNat < 4 := by
  constructor
  · rintro ⟨i, h⟩
    obtain ⟨x, hx, hctl, -⟩ := decodeOperands_tcpClient_eq_ok.1 h
    obtain rfl := readC_eq_some.1 hx
    exact ⟨rfl, ctlReserved_eq_false.1 hctl⟩
  · rintro ⟨hlen, hctl⟩
    obtain ⟨x, hx⟩ := Option.isSome_iff_exists.1 ((readC_isSome args).2 (by omega))
    obtain rfl := readC_eq_some.1 hx
    exact ⟨_, decodeOperands_tcpClient_eq_ok.2 ⟨x, hx, ctlReserved_eq_false.2 hctl, rfl⟩⟩

/-! ### Legal commands (R124) -/

theorem legal_byte_cons_iff (o : Op) (args : List Byte) :
    Legal (o.byte :: args) ↔
      args.length + 1 = o.format.length (be16 (args.getD 2 0#8) (args.getD 3 0#8)).toNat ∧
        (o = .tcpClient → (args.getD 15 0#8).toNat < 4) := by
  have hclient : o.byte = 0x43#8 ↔ o = .tcpClient := Op.byte_inj (o' := .tcpClient)
  rw [Legal, commandLength_byte, hclient, be16_toNat, Option.some.injEq, eq_comm]

theorem not_legal_reserved {b : Byte} (h : Op.ofByte b = none) (args : List Byte) : ¬ Legal (b :: args) := by
  simp [Legal, commandLength_reserved h]

/-- A command decodes exactly when it is legal (R124, R125). -/
theorem exists_decode_iff_legal (c : List Byte) : (∃ i, decode c = .ok i) ↔ Legal c := by
  cases c with
  | nil => simp [decode, Legal]
  | cons b args =>
    cases hb : Op.ofByte b with
    | none => simp [decode_reserved hb, not_legal_reserved hb]
    | some o =>
      obtain rfl := Op.byte_of_ofByte hb
      rw [decode_byte_cons, legal_byte_cons_iff]
      by_cases ho : o = .tcpClient
      · subst ho
        simpa [Op.format, Format.length] using exists_decodeOperands_tcpClient_iff args
      · simpa [ho] using exists_decodeOperands_iff ho args

/-- A command that is not legal is an error of the decoder. -/
theorem exists_decode_error {c : List Byte} (h : ¬ Legal c) : ∃ e, decode c = .error e := by
  cases hd : decode c with
  | error e => exact ⟨e, rfl⟩
  | ok i => exact absurd ((exists_decode_iff_legal c).1 ⟨i, hd⟩) h

end Sys2Proof

namespace Sys2Proof.Machine

open Sys2Proof.Claims

/-! ### Responses (R123) -/

theorem State.respond_eq_withResponse (s : State) : s.respond = withResponse s := rfl

/-- An operation leaves the host's commands and the responses alone. -/
theorem exec_queues {i : Instr} {s t : State} (h : exec i s = .next t) : t.cmds = s.cmds ∧ t.resps = s.resps := by
  obtain ⟨-, -, -, -, hcmds, hresps⟩ := opRow_fixed i s t
  exact ⟨(congrArg State.cmds (exec_row h)).trans hcmds, (congrArg State.resps (exec_row h)).trans hresps⟩

/-! ### FILL (R240) -/

theorem Memory.wrBytes_append (xs ys : List Byte) : ∀ (m : Memory) (a : Nat),
    (m.wrBytes a xs).wrBytes (a + xs.length) ys = m.wrBytes a (xs ++ ys) := by
  induction xs with
  | nil => intro m a; rfl
  | cons x xs ih =>
    intro m a
    rw [List.length_cons, ← Nat.add_assoc, Nat.add_right_comm]
    exact ih (m.wr a x) (a + 1)

/-- The state `FILL pos, text` leaves where the text fits (R240). -/
def State.placed (s : State) (pos : Nat) (text : List Byte) : State :=
  { s with buf := s.buf.wrBytes (54 + pos) text, res := u16 (pos + text.length) }

/-- A text placed where another one ends stands as their concatenation. -/
theorem State.placed_placed (s : State) (pos : Nat) (a b : List Byte) :
    (s.placed pos a).placed (pos + a.length) b = s.placed pos (a ++ b) := by
  simp only [State.placed, ← Nat.add_assoc, Memory.wrBytes_append, List.length_append]

/-- `FILL` of a text that fits, by an engine that executes commands. -/
theorem exec_fill_fits {s : State} (hs : Ready s) {pos : U16} {text : List Byte} (h : 54 + pos.toNat + text.length ≤ s.cap) :
    exec (.fill pos text) s = .next (s.placed pos.toNat text) := by
  obtain ⟨hfault, hinited⟩ := hs
  rw [exec_eq_command rfl, command_ready _ hfault hinited]
  rcases opFill_cases pos text s with ⟨hbeyond, -⟩ | ⟨-, hrun⟩
  · omega
  · rw [opBody, hrun, Run.finish_done, State.placed]

theorem execList_cons_next {i : Instr} {rest : List Instr} {s t : State} (h : exec i s = .next t) :
    execList (i :: rest) s = execList rest t := by
  rw [execList, h]

end Sys2Proof.Machine

namespace Sys2Proof.Proofs

open Sys2Proof.Machine Sys2Proof.Claims

/-- Settles O1: decoding is the inverse of encoding. -/
theorem decodeInvertsEncode : Obligations.DecodeInvertsEncode := fun _ hwf => decode_eq_ok_iff.2 ⟨rfl, hwf⟩

/-- Settles O2: decoding is the inverse of encoding. -/
theorem encodeInvertsDecode : Obligations.EncodeInvertsDecode := fun _ _ h => decode_eq_ok_iff.1 h

/-- Settles O3: opcode by opcode, the format reads exactly the byte strings of the length it requires. -/
theorem legalCommandsExactly : Obligations.LegalCommandsExactly := exists_decode_iff_legal

/-- Settles O6: a command that is not legal is an error of the decoder, which raises `IllegalCommand`. -/
theorem illegalCommandRaises : Obligations.IllegalCommandRaises := by
  intro s c rest hc hf
  refine ⟨fun hillegal => ?_, fun hlegal => ?_⟩
  · obtain ⟨e, he⟩ := exists_decode_error hillegal
    rw [step_illegal hc he, illegal_eq_raise, raise_of_clear .illegalCommand (s := s.withCommands rest) hf]
    rfl
  · obtain ⟨i, hi⟩ := (exists_decode_iff_legal c).2 hlegal
    exact ⟨i, hi, fun j hj => Except.ok.inj (hj.symm.trans hi)⟩

/-- Settles O8: a step that takes a command ends with the response, and before that neither a fault raised nor an operation
writes a response or takes another command. -/
theorem everyCommandIsAnswered : Obligations.EveryCommandIsAnswered := by
  intro s t c rest hc h
  rcases step_cases h with ⟨hidle, -⟩ | ⟨c', rest', hc', rfl⟩ | ⟨c', rest', i, u, hc', -, hu, rfl⟩
  · simp [hidle] at hc
  · obtain ⟨-, rfl⟩ := List.cons.inj (hc.symm.trans hc')
    exact ⟨by simp, by simp [bytes16]⟩
  · obtain ⟨-, rfl⟩ := List.cons.inj (hc.symm.trans hc')
    obtain ⟨hcmds, hresps⟩ := exec_queues hu
    exact ⟨by simp [hcmds], by simp [hresps, bytes16]⟩

/-- Settles O45: the second text is written where the first one ends, so that the buffer is the one of the concatenation. -/
theorem twoFillsConcatenate : Obligations.TwoFillsConcatenate := by
  intro a b s hs hcap
  have ha : (u16 a.length).toNat = a.length := u16_toNat (by have := s.cap_le; omega)
  have hfirst : exec (.fill 0#16 a) s = .next (s.placed 0 a) := exec_fill_fits hs (by simp; omega)
  have hsecond : exec (.fill (u16 a.length) b) (s.placed 0 a) = .next (s.placed 0 (a ++ b)) := by
    rw [exec_fill_fits (s := s.placed 0 a) hs (by rw [ha]; exact hcap), ha]
    simpa using s.placed_placed 0 a b
  have hboth : exec (.fill 0#16 (a ++ b)) s = .next (s.placed 0 (a ++ b)) := exec_fill_fits hs (by simp; omega)
  have hfills : execList (Pseudo.fill2 a b).expand s = .next (s.placed 0 (a ++ b)) := by
    rw [Pseudo.expand, execList_cons_next hfirst, execList_cons_next hsecond, execList]
  exact ⟨_, _, hfills, hboth, rfl, by simp [State.placed], fun _ => rfl, rfl⟩

/-- Settles O4: five words of the tables, decoded by evaluation. -/
theorem specWordsDecode : Obligations.SpecWordsDecode := ⟨rfl, rfl, rfl, rfl, rfl⟩

/-- Settles O5: `exec` always answers a next state, to which the response is appended. -/
theorem stepRunsDecodedCommand : Obligations.StepRunsDecodedCommand := by
  intro s c rest i hc hd
  obtain ⟨u, hu⟩ : ∃ u, exec i (s.withCommands rest) = .next u := ⟨_, exec_eq i _⟩
  rw [step_decoded hc hd hu, State.respond_eq_withResponse]
  exact (congrArg (mapNext withResponse) hu).symm

end Sys2Proof.Proofs
end

section
/-! PROOFS. The Checksum Engine (40_checksum.md): the running sum as the exact total of its terms, folding as arithmetic modulo
65535, the checksum commands, and a stored checksum that verifies to zero. -/

namespace Sys2Proof.Machine

open Sys2Proof.Claims

/-! ### The terms of a range (R142, R143) -/

/-- A word is a 16-bit value. -/
theorem wordValues_le : ∀ (bytes : List Byte), ∀ w ∈ wordValues bytes, w ≤ 65535
  | [], _, hw => absurd hw List.not_mem_nil
  | [a], w, hw => by
    have ha := a.isLt
    rw [wordValues, List.mem_singleton] at hw
    omega
  | a :: b :: rest, w, hw => by
    have ha := a.isLt
    have hb := b.isLt
    rw [wordValues, List.mem_cons] at hw
    rcases hw with rfl | hw
    · omega
    · exact wordValues_le rest w hw

theorem two_mul_length_wordValues_le : ∀ bytes : List Byte, 2 * (wordValues bytes).length ≤ bytes.length + 1
  | [] => Nat.zero_le _
  | [_] => Nat.le_refl _
  | _ :: _ :: rest => by
    have ih := two_mul_length_wordValues_le rest
    simp only [wordValues, List.length_cons]
    omega

theorem wordValues_sum_le (bytes : List Byte) : 2 * (wordValues bytes).sum ≤ (bytes.length + 1) * 65535 := by
  have hsum : (wordValues bytes).sum ≤ (wordValues bytes).length * 65535 := List.sum_le_card_nsmul _ _ (wordValues_le bytes)
  have hlen := two_mul_length_wordValues_le bytes
  omega

/-- Words are paired from the first byte on, so that a part of even length has its own words. -/
theorem wordValues_append : ∀ (xs ys : List Byte), xs.length % 2 = 0 → wordValues (xs ++ ys) = wordValues xs ++ wordValues ys
  | [], _, _ => rfl
  | [_], _, h => by simp at h
  | a :: b :: rest, ys, h => by
    have hrest : rest.length % 2 = 0 := by simp only [List.length_cons] at h; omega
    simp only [List.cons_append, wordValues, wordValues_append rest ys hrest]

/-- A 16-bit field stored big-endian is one word (R65, R143). -/
@[simp] theorem wordValues_bytes16 (v : U16) : wordValues (bytes16 v) = [v.toNat] := by
  rw [bytes16, wordValues, ← be16_toNat, be16_hi_lo, wordValues]

theorem injectedTerms_le {cfg : Config} {kind : Kind} {len : Nat} (h : len ≤ 65535) :
    ∀ w ∈ injectedTerms cfg kind len, w ≤ 65535 := by
  have hudp := cfg.protoUdp.isLt
  have htcp := cfg.protoTcp.isLt
  cases kind with
  | ip => simp [injectedTerms]
  | udp | tcp => simp only [injectedTerms, List.mem_cons, List.not_mem_nil, or_false, forall_eq_or_imp, forall_eq]; omega

/-- Every term is a 16-bit value (R147). -/
theorem terms_le {cfg : Config} {kind : Kind} {bytes : List Byte} (h : bytes.length ≤ 65535) :
    ∀ w ∈ terms cfg kind bytes, w ≤ 65535 := by
  intro w hw
  rcases List.mem_append.1 hw with hw | hw
  · exact injectedTerms_le h w hw
  · exact wordValues_le bytes w hw

theorem injectedTerms_sum_le {cfg : Config} {kind : Kind} {len : Nat} (h : len ≤ 65535) :
    (injectedTerms cfg kind len).sum ≤ 2 * 65535 := by
  have hsum := List.sum_le_card_nsmul _ _ (injectedTerms_le (cfg := cfg) (kind := kind) h)
  cases kind with
  | ip => exact Nat.zero_le _
  | udp | tcp => exact hsum

/-- The total of a range that a command can name is below 2^32 (R146). -/
theorem terms_sum_lt {cfg : Config} {kind : Kind} {bytes : List Byte} (h : bytes.length ≤ 65535) :
    (terms cfg kind bytes).sum < 2 ^ 32 := by
  have hinj := injectedTerms_sum_le (cfg := cfg) (kind := kind) h
  have hwords := wordValues_sum_le bytes
  rw [terms, List.sum_append]
  omega

/-! ### The running sum (R142, R143, R146) -/

theorem two_pow_32_le (w : AccW) : 2 ^ 32 ≤ 2 ^ w.val := Nat.pow_le_pow_right (by decide) w.property

/-- A register wide enough for the total holds it exactly. -/
theorem sumWords_exact {w : Nat} : ∀ (bytes : List Byte) {sum : Nat}, sum + (wordValues bytes).sum < 2 ^ w →
    sumWords w sum bytes = sum + (wordValues bytes).sum
  | [], _, _ => rfl
  | [a], sum, h => by
    have hword : (be16 a 0#8).toNat = a.toNat * 256 := by simp [be16_toNat]
    rw [wordValues, List.sum_singleton] at h ⊢
    rw [sumWords, hword, accAdd_exact h]
  | a :: b :: rest, sum, h => by
    rw [wordValues, List.sum_cons, ← Nat.add_assoc] at h ⊢
    rw [sumWords, be16_toNat, accAdd_exact (by omega)]
    exact sumWords_exact rest h

theorem injected_eq_sum {cfg : Config} {kind : Kind} {len : Nat} (h : len ≤ 65535) :
    injected cfg kind len = (injectedTerms cfg kind len).sum := by
  have hwidth := two_pow_32_le cfg.accW
  have hsum := injectedTerms_sum_le (cfg := cfg) (kind := kind) h
  cases kind with
  | ip => rfl
  | udp | tcp =>
    simp only [injectedTerms, List.sum_cons, List.sum_nil, Nat.add_zero] at hsum ⊢
    exact (accAdd_exact (by omega)).trans (Nat.zero_add _)

/-- R146: the running sum is the total over the integers. -/
theorem sumWords_eq_terms_sum {cfg : Config} {kind : Kind} {bytes : List Byte} (h : bytes.length ≤ 65535) :
    sumWords cfg.accW.val (injected cfg kind bytes.length) bytes = (terms cfg kind bytes).sum := by
  have hwidth := two_pow_32_le cfg.accW
  have hlt := terms_sum_lt (cfg := cfg) (kind := kind) h
  rw [terms, List.sum_append, ← injected_eq_sum h] at hlt ⊢
  exact sumWords_exact bytes (hlt.trans_le hwidth)

/-! ### Folding (R144, R154) -/

theorem folded_le (n : Nat) : folded n ≤ 65535 := by
  unfold folded
  split <;> omega

theorem folded_eq_zero_iff {n : Nat} : folded n = 0 ↔ n = 0 := by
  unfold folded
  split <;> omega

theorem folded_eq_ffff_iff {n : Nat} : folded n = 65535 ↔ n ≠ 0 ∧ n % 65535 = 0 := by
  unfold folded
  split <;> omega

/-- The complement of a folded total brings the total to a multiple of 65535 other than 0 (R149). -/
theorem folded_add_complement (n : Nat) : folded (n + (65535 - folded n)) = 65535 := by
  rw [folded_eq_ffff_iff]
  unfold folded
  split <;> omega

/-- One's-complement addition is addition of totals (R147). -/
theorem endAround_folded {n w : Nat} (hw : w ≤ 65535) : endAround (folded n) w = folded (n + w) := by
  unfold endAround folded
  split <;> split <;> split <;> omega

theorem foldl_endAround_folded : ∀ {order : List Nat}, (∀ w ∈ order, w ≤ 65535) → ∀ n,
    order.foldl endAround (folded n) = folded (n + order.sum)
  | [], _, _ => rfl
  | w :: order, h, n => by
    obtain ⟨hw, horder⟩ := List.forall_mem_cons.1 h
    rw [List.foldl_cons, endAround_folded hw, foldl_endAround_folded horder, List.sum_cons, Nat.add_assoc]

theorem foldedSum_eq_folded {cfg : Config} {kind : Kind} {bytes : List Byte} (h : bytes.length ≤ 65535) :
    foldedSum cfg kind bytes = folded (terms cfg kind bytes).sum := by
  rw [foldedSum, sumWords_eq_terms_sum h, foldSum_eq (terms_sum_lt h), folded]

/-! ### The checksum of a range (R145, R149, R154) -/

theorem checksum_toNat {cfg : Config} {kind : Kind} {bytes : List Byte} (h : bytes.length ≤ 65535) :
    (checksum cfg kind bytes).toNat = 65535 - folded (terms cfg kind bytes).sum := by
  have hle := folded_le (terms cfg kind bytes).sum
  rw [checksum, ckOf_toNat (by rw [foldedSum_eq_folded h]; omega), foldedSum_eq_folded h]

theorem checksum_eq_zero_iff {cfg : Config} {kind : Kind} {bytes : List Byte} (h : bytes.length ≤ 65535) :
    checksum cfg kind bytes = 0x0000#16 ↔ folded (terms cfg kind bytes).sum = 65535 := by
  have hle := folded_le (terms cfg kind bytes).sum
  rw [← BitVec.toNat_inj, checksum_toNat h, BitVec.toNat_ofNat]
  omega

theorem checksum_eq_ffff_iff {cfg : Config} {kind : Kind} {bytes : List Byte} (h : bytes.length ≤ 65535) :
    checksum cfg kind bytes = 0xFFFF#16 ↔ folded (terms cfg kind bytes).sum = 0 := by
  have hle := folded_le (terms cfg kind bytes).sum
  rw [← BitVec.toNat_inj, checksum_toNat h, BitVec.toNat_ofNat]
  omega

/-- The terms of a range with a 16-bit field at an even distance from its start: the field is one term. -/
theorem terms_sum_with_field {cfg : Config} {kind : Kind} {before after : List Byte} (hb : before.length % 2 = 0) (v : U16) :
    (terms cfg kind (before ++ bytes16 v ++ after)).sum =
      (terms cfg kind (before ++ bytes16 0#16 ++ after)).sum + v.toNat := by
  have hlen : ∀ x : U16, (before ++ bytes16 x ++ after).length = before.length + 2 + after.length := by
    intro x; simp [Nat.add_assoc]
  have hwords : ∀ x : U16, (wordValues (before ++ bytes16 x ++ after)).sum =
      (wordValues before).sum + x.toNat + (wordValues after).sum := by
    intro x
    rw [wordValues_append _ _ (by simp [hb]), wordValues_append _ _ hb, wordValues_bytes16]
    simp only [List.sum_append, List.sum_singleton]
  simp only [terms, hlen, hwords, List.sum_append, BitVec.toNat_ofNat]
  omega

/-- R149 on bytes: the checksum with its field zeroed, stored in the field, makes the range verify to zero. -/
theorem checksum_self_verifies {cfg : Config} {kind : Kind} {before after : List Byte} (hb : before.length % 2 = 0)
    (h : before.length + 2 + after.length ≤ 65535) :
    checksum cfg kind (before ++ bytes16 (checksum cfg kind (before ++ bytes16 0#16 ++ after)) ++ after) = 0#16 := by
  have hlen : ∀ x : U16, (before ++ bytes16 x ++ after).length ≤ 65535 := by
    simpa [Nat.add_assoc] using h
  rw [checksum_eq_zero_iff (hlen _), terms_sum_with_field hb, checksum_toNat (hlen _)]
  exact folded_add_complement _

/-! ### The checksum commands (R149 to R152) -/

theorem isInit_cksumInstr (kind : Kind) (off len : U16) : isInit (cksumInstr kind off len) = false := by cases kind <;> rfl

theorem opBody_cksumInstr (kind : Kind) (off len : U16) : opBody (cksumInstr kind off len) = opCksum kind off len := by
  cases kind <;> rfl

theorem encode_cksumInstr (kind : Kind) (off len : U16) :
    encode (cksumInstr kind off len) = cksumOpcode kind :: [hi off, lo off, hi len, lo len] := by
  cases kind <;> rfl

/-- A checksum command of an engine that executes commands is its body (R126). -/
theorem exec_cksumInstr {s : State} (hs : Ready s) (kind : Kind) (off len : U16) :
    exec (cksumInstr kind off len) s = .next (opCksum kind off len s).finish := by
  obtain ⟨hfault, hinited⟩ := hs
  rw [exec_eq_command (isInit_cksumInstr kind off len), command_ready _ hfault hinited, opBody_cksumInstr]

/-- The state a checksum command leaves (R150 to R152). -/
def State.summed (s : State) (kind : Kind) (off len : Nat) : State :=
  { s with res := checksum s.cfg kind (s.buf.slice off len), sum := s.buf.sumOf s.cfg kind off len }

/-- The state with a 16-bit field of the buffer written between two commands. -/
def State.withField (s : State) (a : Nat) (v : U16) : State := { s with buf := s.buf.wr16 a v }

/-- A checksum command with legal operands. -/
theorem exec_cksumInstr_done {s : State} (hs : Ready s) {kind : Kind} {off len : U16} (hlen : kind ≠ .ip → 8 ≤ len.toNat)
    (hcap : len.toNat = 0 ∨ off.toNat + len.toNat ≤ s.cap) :
    exec (cksumInstr kind off len) s = .next (s.summed kind off.toNat len.toNat) := by
  rw [exec_cksumInstr hs]
  rcases opCksum_cases kind off len s with ⟨hkind, hshort, -⟩ | ⟨-, hpos, hbeyond, -⟩ | ⟨-, -, hrun⟩
  · have := hlen hkind; omega
  · omega
  · rw [hrun]; rfl

theorem exec_cksumInstr_badOperand {s : State} (hs : Ready s) {kind : Kind} (hkind : kind ≠ .ip) (off : U16) {len : U16}
    (hshort : len.toNat < 8) : exec (cksumInstr kind off len) s = .next { s with fault := 5#8 } := by
  have ⟨hclear, _⟩ := hs
  rw [exec_cksumInstr hs]
  rcases opCksum_cases kind off len s with ⟨-, -, hrun⟩ | ⟨hlegal, -⟩ | ⟨hlegal, -⟩
  · rw [hrun, Run.finish_raised, raise_of_clear _ hclear]; rfl
  · exact absurd ⟨hkind, hshort⟩ hlegal
  · exact absurd ⟨hkind, hshort⟩ hlegal

theorem exec_cksumInstr_bufferBounds {s : State} (hs : Ready s) {kind : Kind} {off len : U16}
    (hlen : kind ≠ .ip → 8 ≤ len.toNat) (hpos : 0 < len.toNat) (hcap : s.cap < off.toNat + len.toNat) :
    exec (cksumInstr kind off len) s = .next { s with fault := 4#8 } := by
  have ⟨hclear, _⟩ := hs
  rw [exec_cksumInstr hs]
  rcases opCksum_cases kind off len s with ⟨hkind, hshort, -⟩ | ⟨-, -, -, hrun⟩ | ⟨-, hinside, -⟩
  · have := hlen hkind; omega
  · rw [hrun, Run.finish_raised, raise_of_clear _ hclear]; rfl
  · exact absurd ⟨hpos, hcap⟩ hinside

/-! ### Checksums in the Packet Buffer -/

/-- The range's checksum verifies: evaluated with the stored checksum in it, it is 0x0000 (R149). -/
def Memory.Verifies (m : Memory) (cfg : Config) (kind : Kind) (off len : Nat) : Prop :=
  checksum cfg kind (m.slice off len) = 0#16

theorem Memory.Verifies.congr {m m' : Memory} {cfg : Config} {kind : Kind} {off len : Nat} (h : m.Verifies cfg kind off len)
    (hm : ∀ b, off ≤ b → b < off + len → m'.rd b = m.rd b) : m'.Verifies cfg kind off len := by
  rw [Memory.Verifies, Memory.slice_congr hm]
  exact h

/-- A range around a 16-bit field. -/
theorem Memory.slice_around (m : Memory) (off k j : Nat) :
    m.slice off (k + 2 + j) = m.slice off k ++ bytes16 (m.rd16 (off + k)) ++ m.slice (off + (k + 2)) j := by
  rw [Memory.slice_append, Memory.slice_append, bytes16, Memory.rd16, hi_be16, lo_be16, Memory.slice_succ, Memory.slice_succ,
    Memory.slice_zero]

theorem Memory.rd16_wr16 (m : Memory) (a : Nat) (v : U16) : (m.wr16 a v).rd16 a = v := by
  simp [Memory.rd16, Memory.rd_wr16]

/-- A range around a 16-bit field just written (R65). -/
theorem Memory.slice_wr16_around (m : Memory) (off k j : Nat) (v : U16) :
    (m.wr16 (off + k) v).slice off (k + 2 + j) = m.slice off k ++ bytes16 v ++ m.slice (off + (k + 2)) j := by
  have hbefore : (m.wr16 (off + k) v).slice off k = m.slice off k :=
    Memory.slice_congr fun b _ hb => Memory.rd_wrBytes_outside _ _ _ _ (.inl hb)
  have hafter : (m.wr16 (off + k) v).slice (off + (k + 2)) j = m.slice (off + (k + 2)) j :=
    Memory.slice_congr fun b hb _ => Memory.rd_wrBytes_outside _ _ _ _ (.inr hb)
  rw [Memory.slice_around, hbefore, Memory.rd16_wr16, hafter]

/-- R149: storing the checksum of a range in a field of the range that is zero, at an even distance from its start, makes the
range verify. -/
theorem Memory.verifies_storeCksum {m : Memory} {off len k : Nat} (cfg : Config) (kind : Kind) (hzero : m.rd16 (off + k) = 0#16)
    (hk : k % 2 = 0) (hin : k + 2 ≤ len) (hlen : len ≤ 65535) :
    (m.storeCksum cfg kind off len (off + k)).Verifies cfg kind off len := by
  obtain ⟨j, rfl⟩ := Nat.exists_eq_add_of_le hin
  have hbefore : (m.slice off k).length % 2 = 0 := by rwa [Memory.length_slice]
  have hstored := checksum_self_verifies (cfg := cfg) (kind := kind) (after := m.slice (off + (k + 2)) j) hbefore
    (by simpa only [Memory.length_slice] using hlen)
  rw [← hzero, ← Memory.slice_around] at hstored
  rw [Memory.Verifies, Memory.storeCksum, Memory.slice_wr16_around, Memory.sumOf, ← checksum, hstored, hzero]

end Sys2Proof.Machine

namespace Sys2Proof.Proofs

open Sys2Proof.Machine Sys2Proof.Claims

/-- Settles O28: the total is below 2^32, and the register has at least 32 bits. -/
theorem runningSumNeverWraps : Obligations.RunningSumNeverWraps := fun _ _ _ h => sumWords_eq_terms_sum h

/-- Settles O29: both ends are the folded total of the terms, which no order changes. -/
theorem endAroundCarryEquivalence : Obligations.EndAroundCarryEquivalence := by
  intro cfg kind bytes order h hperm
  have hle : ∀ w ∈ order, w ≤ 65535 := fun w hw => terms_le h w (hperm.mem_iff.1 hw)
  calc order.foldl endAround 0 = folded (0 + order.sum) := foldl_endAround_folded hle 0
    _ = folded (terms cfg kind bytes).sum := by rw [Nat.zero_add, hperm.sum_eq]
    _ = foldedSum cfg kind bytes := (foldedSum_eq_folded h).symm

/-- Settles O31: a folded total is 0 only for 0 and 65535 only for the other multiples of 65535; a protocol number is a term that
is not 0. -/
theorem checksumExtremes : Obligations.ChecksumExtremes := by
  intro cfg kind bytes h
  have hffff : checksum cfg kind bytes = 0xFFFF#16 ↔ ∀ w ∈ terms cfg kind bytes, w = 0 := by
    rw [checksum_eq_ffff_iff h, folded_eq_zero_iff, List.sum_eq_zero_iff]
  refine ⟨hffff, fun hkind hudp htcp hck => ?_, ?_⟩
  · have hzero := hffff.1 hck
    cases kind with
    | ip => exact hkind rfl
    | udp | tcp => simp [terms, injectedTerms, hudp, htcp] at hzero
  · rw [checksum_eq_zero_iff h, folded_eq_ffff_iff, ne_eq, List.sum_eq_zero_iff]
    simp only [not_forall, exists_prop, ne_eq]

/-- Settles O27: the two faults in their order, and the folded total of the range. -/
theorem checksumCommands : Obligations.ChecksumCommands := by
  intro kind off len s hs
  refine ⟨encode_cksumInstr kind off len, fun hlen hcap => ⟨_, exec_cksumInstr_done hs hlen hcap, rfl, ?_⟩,
    fun hkind hshort => exec_cksumInstr_badOperand hs hkind off hshort,
    fun hlen hpos hcap => exec_cksumInstr_bufferBounds hs hlen hpos hcap⟩
  exact checksum_toNat (by rw [Memory.length_slice]; have := len.isLt; omega)

/-- Settles O30: the command on the zeroed field gives the checksum that, stored, makes the range verify. -/
theorem checksumSelfVerification : Obligations.ChecksumSelfVerification := by
  intro kind off len k s hs hlen hcap hk hin
  have hlong : len.toNat ≤ 65535 := by have := len.isLt; omega
  have hfirst := exec_cksumInstr_done (s := s.withField (off.toNat + k) 0#16) hs hlen (.inr hcap)
  have hsecond := fun c => exec_cksumInstr_done
    (s := ((s.withField (off.toNat + k) 0#16).summed kind off.toNat len.toNat).withField (off.toNat + k) c) hs hlen (.inr hcap)
  exact ⟨_, _, hfirst, hsecond _, Memory.verifies_storeCksum s.cfg kind (s.buf.rd16_wr16 _ 0#16) hk hin hlong⟩

end Sys2Proof.Proofs
end

section
/-! PROOFS. The checksums of the frames sent (R149, R153, R179): every UDP or TCP frame carries an IP header and a segment that
verify to zero. -/

namespace Sys2Proof.Machine

open Sys2Proof.Claims

/-! ### A range that verifies, under writes elsewhere -/

theorem Memory.Verifies.wrBytes {m : Memory} {cfg : Config} {kind : Kind} {off len a : Nat} (h : m.Verifies cfg kind off len)
    (ha : off + len ≤ a) (bytes : List Byte) : (m.wrBytes a bytes).Verifies cfg kind off len :=
  h.congr fun _ _ hb => Memory.rd_wrBytes_outside _ _ _ _ (.inl (hb.trans_le ha))

theorem Memory.Verifies.wr {m : Memory} {cfg : Config} {kind : Kind} {off len a : Nat} (h : m.Verifies cfg kind off len)
    (ha : off + len ≤ a) (v : Byte) : (m.wr a v).Verifies cfg kind off len := h.wrBytes ha [v]

theorem Memory.rd16_congr {m m' : Memory} {a : Nat} (h : m'.rd a = m.rd a) (h1 : m'.rd (a + 1) = m.rd (a + 1)) :
    m'.rd16 a = m.rd16 a := by rw [Memory.rd16, h, h1, Memory.rd16]

theorem Memory.rd16_wrBytes_outside (m : Memory) {a b : Nat} (bytes : List Byte) (h : b + 2 ≤ a ∨ a + bytes.length ≤ b) :
    (m.wrBytes a bytes).rd16 b = m.rd16 b :=
  Memory.rd16_congr (Memory.rd_wrBytes_outside _ _ _ _ (by omega)) (Memory.rd_wrBytes_outside _ _ _ _ (by omega))

theorem Memory.rd16_wr_outside (m : Memory) {a b : Nat} (v : Byte) (h : b + 2 ≤ a ∨ a + 1 ≤ b) :
    (m.wr a v).rd16 b = m.rd16 b := m.rd16_wrBytes_outside [v] h

/-- A field zeroed byte by byte (R153). -/
theorem Memory.rd16_zeroed (m : Memory) (a : Nat) : ((m.wr a 0x00#8).wr (a + 1) 0x00#8).rd16 a = 0#16 := m.rd16_wr16 a 0#16

/-! ### The IP header (R179) -/

/-- `IpFinish` leaves a header that verifies. -/
theorem verifies_ipFinish (cfg : Config) (m : Memory) : (ipFinish cfg m).Verifies cfg .ip 14 20 := by
  have hzero : (ipZeroed cfg m).rd16 (14 + 10) = 0#16 := by simp [Memory.rd16, rd_ipZeroed, be16]
  exact Memory.verifies_storeCksum (off := 14) (len := 20) (k := 10) cfg .ip hzero rfl (by decide) (by decide)

theorem rd_ipFinish_outside (cfg : Config) (m : Memory) {b : Nat} (h : 34 ≤ b) : (ipFinish cfg m).rd b = m.rd b := by
  have hfields : b ≠ 20 ∧ b ≠ 21 ∧ b ≠ 22 ∧ b ≠ 24 ∧ b ≠ 25 := by omega
  simp [ipFinish, Memory.rd_storeCksum, rd_ipZeroed, hfields]

theorem rd16_ipReply_outside (cfg : Config) (ip : Ip4) (m : Memory) {b : Nat} (h : 34 ≤ b) :
    (ipReply cfg ip m).rd16 b = m.rd16 b := by
  have hrd : ∀ c, 34 ≤ c → (ipReply cfg ip m).rd c = m.rd c := by
    intro c hc
    rw [ipReply, rd_ipFinish_outside cfg _ hc, rd_ipTurn, if_neg (by omega), if_neg (by omega)]
  exact Memory.rd16_congr (hrd b h) (hrd (b + 1) (by omega))

/-! ### The buffers a segment checksum is evaluated on -/

/-- The buffer when the segment checksum is evaluated: the IP header verifies, and the checksum field is zero (R153, R179). -/
def Memory.Zeroed (m : Memory) (cfg : Config) (field : Nat) : Prop := m.Verifies cfg .ip 14 20 ∧ m.rd16 field = 0#16

theorem verifies_tcpOption {m : Memory} {cfg' : Config} (h : m.Verifies cfg' .ip 14 20) (cfg : Config) (mss : Bool) :
    (tcpOption cfg mss m).Verifies cfg' .ip 14 20 := by
  unfold tcpOption
  split
  · exact (h.wrBytes (by simp) _).wr (by simp) _
  · exact h.wr (by simp) _

theorem rd16_tcpOption (cfg : Config) (mss : Bool) (m : Memory) : (tcpOption cfg mss m).rd16 TCP_CSUM = m.rd16 TCP_CSUM := by
  unfold tcpOption
  split
  · rw [Memory.rd16_wr_outside _ _ (by simp), Memory.rd16_wrBytes_outside _ _ (by simp)]
  · exact Memory.rd16_wr_outside _ _ (by simp)

theorem verifies_portsTurn {m : Memory} {cfg' : Config} (h : m.Verifies cfg' .ip 14 20) :
    (portsTurn m).Verifies cfg' .ip 14 20 := (h.wr (by simp) _).wr (by simp) _

/-- `TcpHead` writes past the IP header only (R210). -/
theorem verifies_tcpHead {m : Memory} {cfg' : Config} (h : m.Verifies cfg' .ip 14 20) (cfg : Config) (port seq : Byte) (adv : U16)
    (mss newseq : Bool) : (tcpHead cfg port seq adv mss newseq m).Verifies cfg' .ip 14 20 := by
  have hports := ((verifies_portsTurn h).wr (a := TCP_SPORT) (by simp) 0x00#8).wr (a := TCP_SPORT + 1) (by simp) port
  exact verifies_tcpOption ((((hports.wrBytes (by simp) _).wrBytes (by simp) _).wr (by simp) _).wr (by simp) _) cfg mss

/-- `TcpHead` leaves the checksum field zero (R210). -/
theorem rd16_tcpHead (cfg : Config) (port seq : Byte) (adv : U16) (mss newseq : Bool) (m : Memory) :
    (tcpHead cfg port seq adv mss newseq m).rd16 TCP_CSUM = 0#16 := by
  rw [tcpHead, rd16_tcpOption]
  exact Memory.rd16_zeroed _ _

theorem synackZeroed_zeroed (cfg : Config) (mac : Mac) (ip : Ip4) (port seq : Byte) (m : Memory) :
    (synackZeroed cfg mac ip port seq m).Zeroed cfg TCP_CSUM :=
  ⟨verifies_tcpHead ((verifies_ipFinish cfg _).wr (by simp) _) _ _ _ _ _ _, rd16_tcpHead _ _ _ _ _ _ _⟩

theorem ackZeroed_zeroed (cfg : Config) (mac : Mac) (ip : Ip4) (port : Byte) (dlen : U16) (m : Memory) :
    (ackZeroed cfg mac ip port dlen m).Zeroed cfg TCP_CSUM := by
  refine ⟨verifies_ipFinish cfg _, ?_⟩
  rw [ackZeroed, rd16_ipReply_outside _ _ _ (by simp), Memory.wr16, Memory.rd16_wrBytes_outside _ _ (by simp)]
  exact rd16_tcpHead _ _ _ _ _ _ _

theorem ackdataZeroed_zeroed (cfg : Config) (dlen : U16) (m : Memory) : (ackdataZeroed cfg dlen m).Zeroed cfg TCP_CSUM :=
  ⟨((verifies_ipFinish cfg _).wr (by simp) _).wr (by simp) _, Memory.rd16_zeroed _ _⟩

theorem udpZeroed_zeroed (cfg : Config) (mac : Mac) (ip : Ip4) (sport : U16) (payload : List Byte) (m : Memory) :
    (udpZeroed cfg mac ip sport payload m).Zeroed cfg UDP_CSUM := by
  refine ⟨?_, Memory.rd16_zeroed _ _⟩
  have hports := verifies_portsTurn (verifies_ipFinish cfg
    (ipTurn ip ((ethReply mac m).wr16 IP_TOTLEN (u16 (28 + payload.length)))))
  exact ((((hports.wrBytes (by simp) _).wrBytes (by simp) _).wrBytes (by simp) _).wr (by simp) _).wr (by simp) _

theorem clientTail_zeroed {m : Memory} {cfg' : Config} (h : m.Verifies cfg' .ip 14 20) (cfg : Config) (flags : Byte)
    (clrack : Bool) : (clientTail cfg flags clrack m).Zeroed cfg' TCP_CSUM := by
  constructor
  · have hack : (if clrack then m.wr32 TCP_ACK 0#32 else m).Verifies cfg' .ip 14 20 := by
      split
      · exact h.wrBytes (by simp) _
      · exact h
    exact (((((hack.wr (by simp) _).wrBytes (by simp) _).wr (by simp) _).wr (by simp) _).wr (by simp) _).wr (by simp) _
  · rw [clientTail, Memory.rd16_wr_outside _ _ (by simp), Memory.rd16_wr_outside _ _ (by simp)]
    exact Memory.rd16_zeroed _ _

theorem clientZeroed_zeroed (s : State) (dmac : Mac) (dip : Ip4) (dport sport : U16) (flags : Byte) (mss clrack : Bool)
    (ackadv dlen : U16) : (clientZeroed s dmac dip dport sport flags mss clrack ackadv dlen).Zeroed s.cfg TCP_CSUM :=
  clientTail_zeroed (verifies_ipFinish s.cfg _) _ _ _

/-! ### The frame sent -/

theorem Memory.drop_slice (m : Memory) (a n k : Nat) : (m.slice a n).drop k = m.slice (a + k) (n - k) := by
  simp [Memory.slice, ← List.map_drop, List.drop_range']

theorem Memory.take_slice (m : Memory) (a : Nat) {n k : Nat} (h : k ≤ n) : (m.slice a n).take k = m.slice a k := by
  obtain ⟨j, rfl⟩ := Nat.exists_eq_add_of_le h
  rw [Memory.slice_append, List.take_left' (m.length_slice a k)]

/-- The two checksums of a frame with an IP header verify: the header's, and the segment's with its pseudo-header. -/
def FrameVerifies (cfg : Config) (kind : Kind) (frame : List Byte) : Prop :=
  checksum cfg .ip ((frame.drop 14).take 20) = 0#16 ∧ checksum cfg kind (frame.drop 26) = 0#16

/-- Storing the segment checksum completes a frame that verifies (R153). -/
theorem Memory.Zeroed.frameVerifies {m : Memory} {cfg : Config} {k len n : Nat} (h : m.Zeroed cfg (26 + k)) (kind : Kind)
    (hk : k % 2 = 0) (hpast : 8 ≤ k) (hin : k + 2 ≤ len) (hlen : len ≤ 65535) (hn : n = 26 + len) :
    FrameVerifies cfg kind ((m.storeCksum cfg kind 26 len (26 + k)).slice 0 n) := by
  subst hn
  obtain ⟨hip, hzero⟩ := h
  constructor
  · rw [Memory.drop_slice, Memory.take_slice _ _ (by omega)]
    exact hip.wrBytes (by omega) _
  · rw [Memory.drop_slice, Nat.add_sub_cancel_left]
    exact Memory.verifies_storeCksum cfg kind hzero hk hin hlen

/-! ### What the operations send -/

/-- From `s` to `t`, `count` frames were sent, and each of them verifies. -/
def State.SentVerified (s : State) (kind : Kind) (count : Nat) (t : State) : Prop :=
  ∃ new : List (List Byte), t.txlog = s.txlog ++ new ∧ new.length = count ∧ ∀ f ∈ new, FrameVerifies s.cfg kind f

theorem State.sentVerified_one {s t : State} {kind : Kind} {f : List Byte} (ht : t.txlog = s.txlog ++ [f])
    (hf : FrameVerifies s.cfg kind f) : s.SentVerified kind 1 t :=
  ⟨[f], ht, rfl, fun _ hg => List.mem_singleton.1 hg ▸ hf⟩

theorem State.SentVerified.of_linkReceive {s t : State} {kind : Kind} {k : Nat} (h : s.linkReceive.SentVerified kind k t) :
    s.SentVerified kind k t := h

theorem State.SentVerified.withRes {s t : State} {kind : Kind} {k : Nat} (h : s.SentVerified kind k t) (v : U16) :
    s.SentVerified kind k { t with res := v } := h

theorem State.SentVerified.trans {s t u : State} {kind : Kind} {j k : Nat} (h : s.SentVerified kind j t) (hcfg : t.cfg = s.cfg)
    (h' : t.SentVerified kind k u) : s.SentVerified kind (j + k) u := by
  obtain ⟨xs, hxs, hj, hvx⟩ := h
  obtain ⟨ys, hys, hk, hvy⟩ := h'
  refine ⟨xs ++ ys, by rw [hys, hxs, List.append_assoc], by rw [List.length_append, hj, hk], fun f hf => ?_⟩
  rcases List.mem_append.1 hf with hf | hf
  · exact hvx f hf
  · exact hcfg ▸ hvy f hf

/-- The end of every TCP transcoder sends one frame that verifies. -/
theorem State.tcpSend_sentVerified {s : State} {z : Memory} {len n : Nat} (hz : z.Zeroed s.cfg TCP_CSUM) (hin : 26 ≤ len)
    (hlen : len ≤ 65535) (hn : n = 26 + len) : s.SentVerified .tcp 1 (s.tcpSend z len n) :=
  State.sentVerified_one rfl (Memory.Zeroed.frameVerifies (k := 24) hz .tcp (by decide) (by decide) hin hlen hn)

theorem State.acked_sentVerified (s : State) : s.SentVerified .tcp 1 s.acked :=
  State.tcpSend_sentVerified (ackZeroed_zeroed _ _ _ _ _ _) (by decide) (by decide) rfl

theorem State.answered_sentVerified {s : State} {dlen : U16} (h : 54 + dlen.toNat ≤ s.cap) :
    s.SentVerified .tcp 1 (s.answered dlen) := by
  have hcap := s.cap_le
  exact State.tcpSend_sentVerified (ackdataZeroed_zeroed _ _ _) (by omega) (by omega) (by omega)

theorem opUdpReply_sentVerified {sport v : U16} {data : List Byte} {s u : State}
    (h : opUdpReply sport data s = .done v u) : s.SentVerified .udp 1 u := by
  have hcap := s.cap_le
  rcases opUdpReply_cases sport data s with ⟨-, hrun⟩ | ⟨hfits, hrun⟩
  · cases hrun.symm.trans h
  · obtain ⟨-, rfl⟩ := Run.done.inj (hrun.symm.trans h)
    exact State.sentVerified_one rfl (Memory.Zeroed.frameVerifies (k := 14) (udpZeroed_zeroed _ _ _ _ _ _) .udp (by decide)
      (by decide) (by omega) (by omega) (by omega))

theorem State.synack_sentVerified (s : State) : s.SentVerified .tcp 1
    (State.tcpSend { s with seq := s.seq + s.cfg.seqStep } (synackZeroed s.cfg s.mac s.ip s.port s.seq s.buf) 32 58) :=
  State.tcpSend_sentVerified (s := { s with seq := s.seq + s.cfg.seqStep }) (synackZeroed_zeroed _ _ _ _ _ _) (by decide)
    (by decide) rfl

theorem opTcpAck_sentVerified {s u : State} {v : U16} (h : opTcpAck s = .done v u) : s.SentVerified .tcp 1 u := by
  rcases opTcpAck_cases s with ⟨-, hrun⟩ | ⟨-, hrun⟩
  · obtain ⟨-, rfl⟩ := Run.done.inj (hrun.symm.trans h)
    exact s.acked_sentVerified
  · cases hrun.symm.trans h

theorem opTcpAckdata_sentVerified {dlen v : U16} {s u : State} (h : opTcpAckdata dlen s = .done v u) :
    s.SentVerified .tcp 1 u := by
  rcases opTcpAckdata_cases dlen s with ⟨-, hrun⟩ | ⟨hfits, hrun⟩
  · cases hrun.symm.trans h
  · obtain ⟨-, rfl⟩ := Run.done.inj (hrun.symm.trans h)
    exact State.answered_sentVerified hfits

theorem opTcpClient_sentVerified {dmac : Mac} {dip : Ip4} {dport sport : U16} {flags : Byte} {mss clrack : Bool}
    {ackadv dlen v : U16} {s u : State} (h : opTcpClient dmac dip dport sport flags mss clrack ackadv dlen s = .done v u) :
    s.SentVerified .tcp 1 u := by
  have hcap := s.cap_le
  rcases opTcpClient_cases dmac dip dport sport flags mss clrack ackadv dlen s with ⟨-, hrun⟩ | ⟨hfits, hrun⟩
  · cases hrun.symm.trans h
  · obtain ⟨-, rfl⟩ := Run.done.inj (hrun.symm.trans h)
    exact State.tcpSend_sentVerified
      (s := { s with ipid := s.ipid + 1#16, seq := if mss then s.seq + s.cfg.seqStep else s.seq })
      (clientZeroed_zeroed s _ _ _ _ _ _ _ _ _) (by omega) (by omega) (by omega)

/-! ### What `DISPATCH` sends -/

/-- Rule 8 sends two frames (R276). -/
theorem State.exchange_sentVerified (s : State) (req : List Byte) {resp : List Byte} (h : 54 + resp.length ≤ s.cap) :
    s.SentVerified .tcp 2 ((s.filled req resp).acked.answered (u16 resp.length)) := by
  have hcap := s.cap_le
  have hlen : (u16 resp.length).toNat = resp.length := u16_toNat (by omega)
  have hack : s.SentVerified .tcp 1 (s.filled req resp).acked := (s.filled req resp).acked_sentVerified
  exact hack.trans rfl (State.answered_sentVerified (by rw [hlen]; exact h))

/-- Rules 6 and 8 (R274). -/
theorem dispatchAck_sentVerified {s u : State} {v : U16} (h : dispatchAck s = .done v u) (hv : v ≠ 7#16) :
    s.SentVerified .tcp (framesFor v) u := by
  rcases dispatchAck_cases s with ⟨-, -, hrun⟩ | ⟨-, -, hrun⟩ | ⟨-, -, hrun⟩
  · obtain ⟨rfl, rfl⟩ := Run.done.inj (hrun.symm.trans h)
    exact s.derived.acked_sentVerified
  · obtain ⟨rfl, -⟩ := Run.done.inj (hrun.symm.trans h)
    exact absurd rfl hv
  · rw [hrun] at h
    rcases dispatchData_cases (34#16 + s.derived.hlen) s.derived rfl with ⟨-, hdata⟩ | ⟨-, -, hdata⟩ |
      ⟨-, hfits, hdata⟩
    · cases hdata.symm.trans h
    · cases hdata.symm.trans h
    · obtain ⟨rfl, rfl⟩ := Run.done.inj (hdata.symm.trans h)
      exact s.derived.exchange_sentVerified _ hfits

/-- Rules 5, 6 and 8 on the frame received (R270). -/
theorem dispatchFrame_sentVerified {s u : State} {v : U16} (hn : s.rxlen ≠ 0#16) (hc : s.rxlen.toNat ≤ s.cap)
    (h : dispatchFrame s.rxlen s = .done v u) (hv : v = 5#16 ∨ v = 6#16 ∨ v = 8#16) :
    s.SentVerified .tcp (framesFor v) u := by
  have otherRule : ∀ {code : U16} {t : State}, dispatchFrame s.rxlen s = .done code t →
      ¬(code = 5#16 ∨ code = 6#16 ∨ code = 8#16) → s.SentVerified .tcp (framesFor v) u := fun hrun hcode =>
    absurd ((Run.done.inj (hrun.symm.trans h)).1 ▸ hv) hcode
  rcases dispatchFrame_cases s hn hc with ⟨-, hrun⟩ | ⟨-, -, hrun⟩ | ⟨-, -, -, hrun⟩ | ⟨-, -, -, -, -, hrun⟩ |
    ⟨-, -, -, -, -, -, hrun⟩ | ⟨-, -, -, -, hrun⟩
  · exact otherRule hrun (by decide)
  · exact otherRule hrun (by decide)
  · exact otherRule hrun (by decide)
  · obtain ⟨rfl, rfl⟩ := Run.done.inj (hrun.symm.trans h)
    exact s.synack_sentVerified
  · exact dispatchAck_sentVerified (hrun.symm.trans h) (by rintro rfl; exact absurd hv (by decide))
  · exact otherRule hrun (by decide)

/-- Rules 5, 6 and 8 (R270); the receive sends nothing. -/
theorem opDispatch_sentVerified {s u : State} {v : U16} (h : opDispatch s = .done v u) (hv : v = 5#16 ∨ v = 6#16 ∨ v = 8#16) :
    s.SentVerified .tcp (framesFor v) u := by
  rcases opDispatch_cases s with ⟨-, hrun⟩ | ⟨hn, hc, hrun⟩
  · obtain ⟨rfl, -⟩ := Run.done.inj (hrun.symm.trans h)
    exact absurd hv (by decide)
  · exact (dispatchFrame_sentVerified hn hc (hrun.symm.trans h) hv).of_linkReceive

/-- A command that leaves no fault ran its body to its end (R126, R292). -/
theorem opBody_done_of_exec {i : Instr} {s t : State} (hs : Ready s) (hi : isInit i = false) (h : exec i s = .next t)
    (hfault : t.fault = 0#8) : ∃ v u, opBody i s = .done v u ∧ t = { u with res := v } := by
  obtain ⟨hclear, hinited⟩ := hs
  rw [exec_eq_command hi, command_ready _ hclear hinited, Host.Outcome.next.injEq] at h
  subst h
  have hkept := opBody_fault i s
  cases hr : opBody i s with
  | done v u => exact ⟨v, u, rfl, rfl⟩
  | raised f u =>
    rw [hr] at hfault hkept
    have hu : u.fault = 0#8 := hkept.trans hclear
    rw [Run.finish_raised, raise_of_clear f hu] at hfault
    exact absurd hfault f.code_ne_zero

end Sys2Proof.Machine

namespace Sys2Proof.Proofs

open Sys2Proof.Machine Sys2Proof.Claims

/-- Settles O44: each operation completes the frame by storing the segment checksum in a buffer whose IP header verifies. -/
theorem sentChecksumsVerify : Obligations.SentChecksumsVerify := by
  intro kind i s t hs hi hexec hfault
  have done : isInit i = false → ∃ v u, opBody i s = .done v u ∧ t = { u with res := v } := fun hinit =>
    opBody_done_of_exec hs hinit hexec hfault
  rcases hi with ⟨rfl, sport, data, rfl⟩ | ⟨rfl, rfl | rfl | ⟨dlen, rfl⟩ | hclient | ⟨rfl, hcode⟩⟩
  · obtain ⟨v, u, hrun, rfl⟩ := done rfl
    exact (opUdpReply_sentVerified hrun).withRes v
  · obtain ⟨v, u, hrun, rfl⟩ := done rfl
    obtain ⟨-, rfl⟩ := Run.done.inj hrun
    exact s.synack_sentVerified
  · obtain ⟨v, u, hrun, rfl⟩ := done rfl
    exact (opTcpAck_sentVerified hrun).withRes v
  · obtain ⟨v, u, hrun, rfl⟩ := done rfl
    exact (opTcpAckdata_sentVerified hrun).withRes v
  · cases i with
    | tcpClient dmac dip dport sport flags mss clrack ackadv dlen =>
      obtain ⟨v, u, hrun, rfl⟩ := done rfl
      exact (opTcpClient_sentVerified hrun).withRes v
    | _ => cases hclient
  · obtain ⟨v, u, hrun, rfl⟩ := done rfl
    exact (opDispatch_sentVerified hrun hcode).withRes v

end Sys2Proof.Proofs
end

section
/-! PROOFS. The Frame Classifier (41_classifier.md): each classifier decides its comparisons, and what the comparisons of one
say about another. -/

namespace Sys2Proof.Machine

open Sys2Proof.Claims

/-! ### The comparisons of the rules (R161 to R163) -/

theorem Memory.slice_two_eq_iff (m : Memory) (a : Nat) (x y : Byte) :
    m.slice a 2 = [x, y] ↔ m.rd a = x ∧ m.rd (a + 1) = y := by
  simp [Memory.slice_succ]

theorem State.slice_eq_ip_bytes_iff (s : State) (a : Nat) : s.buf.slice a 4 = s.ip.bytes ↔ IpAt s a := by
  simp [Memory.slice_succ, Ip4.bytes]

theorem State.arpForMe_iff (s : State) (len : Nat) : s.arpForMe len = true ↔ ArpForMe s len := by
  simp only [State.arpForMe, Bool.and_eq_true, decide_eq_true_eq, beq_iff_eq, Memory.slice_two_eq_iff,
    State.slice_eq_ip_bytes_iff, and_assoc]

theorem State.ip4ForMe_iff (s : State) (len : Nat) : s.ip4ForMe len = true ↔ Ip4ForMe s len := by
  simp only [State.ip4ForMe, Bool.and_eq_true, decide_eq_true_eq, beq_iff_eq, Memory.slice_two_eq_iff,
    State.slice_eq_ip_bytes_iff, and_assoc]

theorem State.arpReplyIsMine_iff (s : State) : s.arpReplyIsMine = true ↔ ArpReplyIsMine s := by
  simp only [State.arpReplyIsMine, Bool.and_eq_true, beq_iff_eq, Memory.slice_two_eq_iff, State.slice_eq_ip_bytes_iff,
    and_assoc]

/-! ### The classifiers as commands -/

/-- A command that passes its checks and whose body completes writes the body's value to `RES` (R30, R126). -/
theorem exec_of_opBody_done {i : Instr} {s u : State} {v : U16} (hs : Ready s) (hi : isInit i = false)
    (h : opBody i s = .done v u) : exec i s = .next { u with res := v } := by
  obtain ⟨hclear, hinited⟩ := hs
  rw [exec_eq_command hi, command_ready _ hclear hinited, h, Run.finish]

/-- A predicate's result (R30), by what the predicate decides. -/
theorem boolRes_eq_ite {b : Bool} {p : Prop} [Decidable p] (h : b = true ↔ p) : boolRes b = if p then 1#16 else 0#16 := by
  simp only [boolRes, h]

/-- `RES = 1` says that the predicate holds (R30). -/
theorem ite_one_zero_eq_one_iff {p : Prop} [Decidable p] : (if p then 1#16 else 0#16) = 1#16 ↔ p := by
  by_cases hp : p <;> simp [hp]

theorem exec_clsArp {s : State} (hs : Ready s) (len : U16) :
    exec (.clsArp len) s = .next { s with res := if ArpForMe s len.toNat then 1#16 else 0#16 } := by
  rw [exec_of_opBody_done hs rfl rfl, boolRes_eq_ite (s.arpForMe_iff len.toNat)]

theorem exec_clsIp4 {s : State} (hs : Ready s) (len : U16) :
    exec (.clsIp4 len) s = .next { s with res := if Ip4ForMe s len.toNat then 1#16 else 0#16 } := by
  rw [exec_of_opBody_done hs rfl rfl, boolRes_eq_ite (s.ip4ForMe_iff len.toNat)]

theorem exec_clsArprply {s : State} (hs : Ready s) :
    exec .clsArprply s = .next { s with res := if ArpReplyIsMine s then 1#16 else 0#16 } := by
  rw [exec_of_opBody_done hs rfl rfl, boolRes_eq_ite s.arpReplyIsMine_iff]

/-! ### Relations between the comparisons (R164) -/

/-- The EtherTypes differ in `BUF[13]`. -/
theorem not_arpForMe_and_ip4ForMe (s : State) (len len' : Nat) : ¬(ArpForMe s len ∧ Ip4ForMe s len') := by
  rintro ⟨⟨-, -, harp, -⟩, -, -, hip4, -⟩
  exact absurd (harp.symm.trans hip4) (by decide)

/-- A reply for this node passes every comparison of `CLS.ARP` but the one of the length. -/
theorem arpForMe_of_arpReplyIsMine {s : State} {len : Nat} (h : ArpReplyIsMine s) (hlen : s.cfg.arpMin ≤ len) :
    ArpForMe s len := by
  obtain ⟨htype, htype', -, -, htpa⟩ := h
  exact ⟨hlen, htype, htype', htpa⟩

end Sys2Proof.Machine

namespace Sys2Proof.Proofs

open Sys2Proof.Machine Sys2Proof.Claims

/-- Settles O33: the answers are the comparisons of the rules, and the EtherType of one excludes the other. -/
theorem classifierRelations : Obligations.ClassifierRelations := by
  intro len len' s t u v hs ht hu hv
  obtain rfl := Host.Outcome.next.inj ((exec_clsArp hs len).symm.trans ht)
  obtain rfl := Host.Outcome.next.inj ((exec_clsIp4 hs len').symm.trans hu)
  obtain rfl := Host.Outcome.next.inj ((exec_clsArprply hs).symm.trans hv)
  simp only [ite_one_zero_eq_one_iff]
  exact ⟨not_arpForMe_and_ip4ForMe s _ _, arpForMe_of_arpReplyIsMine⟩

/-- Settles O32: the body of each classifier completes with the result of its comparisons. -/
theorem classifierAnswers : Obligations.ClassifierAnswers := fun len _ hs =>
  ⟨rfl, rfl, rfl, exec_clsArp hs len, exec_clsIp4 hs len, exec_clsArprply hs⟩

end Sys2Proof.Proofs
end

section
/-! PROOFS. The frames of the ARP, ICMP and UDP transcoders, byte for byte (42_transcoders_arp_icmp_udp.md): what each write of
a transcoder leaves in a range of the buffer, the headers assembled from the ranges, and the frames assembled from the headers. -/

namespace Sys2Proof.Machine

open Sys2Proof.Claims

/-! ### Ranges under the writes of the Packet Buffer -/

section
variable (m : Memory)

theorem Memory.slice_wrBytes (a : Nat) (bytes : List Byte) : (m.wrBytes a bytes).slice a bytes.length = bytes :=
  List.ext_getElem (Memory.length_slice _ _ _) fun k _ hk => by
    rw [Memory.getElem_slice, Memory.rd_wrBytes_inside _ _ _ _ hk]

theorem Memory.slice_wrBytes_apart {a b n : Nat} {bytes : List Byte} (h : b + n ≤ a ∨ a + bytes.length ≤ b) :
    (m.wrBytes a bytes).slice b n = m.slice b n :=
  Memory.slice_congr fun c _ _ => Memory.rd_wrBytes_outside _ _ _ _ (by omega)

theorem Memory.slice_wr (a : Nat) (v : Byte) : (m.wr a v).slice a 1 = [v] := m.slice_wrBytes a [v]

theorem Memory.slice_wr_apart {a b n : Nat} (v : Byte) (h : b + n ≤ a ∨ a + 1 ≤ b) : (m.wr a v).slice b n = m.slice b n :=
  m.slice_wrBytes_apart (bytes := [v]) h

theorem Memory.slice_wr16 (a : Nat) (v : U16) : (m.wr16 a v).slice a 2 = bytes16 v := m.slice_wrBytes a (bytes16 v)

theorem Memory.slice_wr16_apart {a b n : Nat} (v : U16) (h : b + n ≤ a ∨ a + 2 ≤ b) :
    (m.wr16 a v).slice b n = m.slice b n := m.slice_wrBytes_apart h

theorem Memory.bytes16_rd16 (a : Nat) : bytes16 (m.rd16 a) = m.slice a 2 := by
  rw [bytes16, Memory.rd16, hi_be16, lo_be16, Memory.slice_succ, Memory.slice_succ, Memory.slice_zero]

/-- The destination field of a turn-round receives the old source field (R71). -/
theorem Memory.slice_turnRound_dst {dst src n : Nat} {own : List Byte} (hn : own.length = n)
    (h : dst + n ≤ src ∨ src + n ≤ dst) : (m.turnRound dst src own).slice dst n = m.slice src n := by
  subst hn
  refine List.ext_getElem (by simp) fun k hk _ => ?_
  rw [Memory.length_slice] at hk
  rw [Memory.getElem_slice, Memory.getElem_slice, Memory.rd_turnRound _ _ _ _ _ h, if_pos (by omega), Nat.add_sub_cancel_left]

/-- The source field of a turn-round receives this node's own bytes (R71). -/
theorem Memory.slice_turnRound_src {dst src n : Nat} {own : List Byte} (hn : own.length = n)
    (h : dst + n ≤ src ∨ src + n ≤ dst) : (m.turnRound dst src own).slice src n = own := by
  subst hn
  refine List.ext_getElem (by simp) fun k hk _ => ?_
  rw [Memory.length_slice] at hk
  rw [Memory.getElem_slice, Memory.rd_turnRound _ _ _ _ _ h, if_neg (by omega), if_pos (by omega), Nat.add_sub_cancel_left,
    List.getElem?_eq_getElem hk, Option.getD_some]

theorem Memory.slice_turnRound_apart {dst src b n : Nat} {own : List Byte} (h : dst + own.length ≤ src ∨ src + own.length ≤ dst)
    (hdst : b + n ≤ dst ∨ dst + own.length ≤ b) (hsrc : b + n ≤ src ∨ src + own.length ≤ b) :
    (m.turnRound dst src own).slice b n = m.slice b n :=
  Memory.slice_congr fun c _ _ => by
    rw [Memory.rd_turnRound _ _ _ _ _ h, if_neg (by omega)]
    split
    · rw [List.getElem?_eq_none (by omega), Option.getD_none]
    · rfl

/-- A range around a checksum that was stored over it and the `p` bytes before it, its field having been zero (R153). -/
theorem Memory.slice_storeCksum {off p k : Nat} (j : Nat) (cfg : Config) (kind : Kind) (hzero : m.rd16 (off + p + k) = 0#16) :
    (m.storeCksum cfg kind off (p + (k + 2 + j)) (off + p + k)).slice (off + p) (k + 2 + j) =
      Claims.segment cfg kind (m.slice off p) (m.slice (off + p) k) (m.slice (off + p + (k + 2)) j) := by
  have hrange : m.slice off (p + (k + 2 + j)) =
      m.slice off p ++ m.slice (off + p) k ++ [0x00#8, 0x00#8] ++ m.slice (off + p + (k + 2)) j := by
    rw [Memory.slice_append, Memory.slice_around, hzero]
    simp only [← List.append_assoc]
    rfl
  rw [Memory.storeCksum, Memory.slice_wr16_around, Memory.sumOf, ← checksum, hrange, Claims.segment]

theorem Memory.slice_storeCksum_apart {field b n : Nat} (cfg : Config) (kind : Kind) (off len : Nat)
    (h : b + n ≤ field ∨ field + 2 ≤ b) : (m.storeCksum cfg kind off len field).slice b n = m.slice b n :=
  m.slice_wr16_apart _ h

/-! ### Ranges under the steps the transcoders share -/

/-- The addresses of `EthReply` (R176). -/
theorem slice_ethReply (mac : Mac) : (ethReply mac m).slice 0 12 = m.slice 6 6 ++ mac.bytes := by
  have hdst : (ethReply mac m).slice 0 6 = m.slice 6 6 := m.slice_turnRound_dst (own := mac.bytes) rfl (.inl le_rfl)
  have hsrc : (ethReply mac m).slice 6 6 = mac.bytes := m.slice_turnRound_src (own := mac.bytes) rfl (.inl le_rfl)
  rw [Memory.slice_append _ 0 6 6, hdst, hsrc]

theorem slice_ethReply_apart {b : Nat} (n : Nat) (mac : Mac) (h : 12 ≤ b) : (ethReply mac m).slice b n = m.slice b n :=
  m.slice_turnRound_apart (.inl le_rfl) (.inr (by simp; omega)) (.inr h)

/-- The addresses of `EthNew` (R177). -/
theorem slice_ethNew (mac dmac : Mac) : (ethNew mac dmac m).slice 0 12 = dmac.bytes ++ mac.bytes := by
  simp [Memory.slice_succ, rd_ethNew, Mac.bytes]

theorem slice_ethNew_apart {b : Nat} (n : Nat) (mac dmac : Mac) (h : 12 ≤ b) : (ethNew mac dmac m).slice b n = m.slice b n :=
  Memory.slice_congr fun c _ _ => by rw [rd_ethNew, if_neg (by omega), if_neg (by omega)]

/-- The addresses of `IpReply` (R178). -/
theorem slice_ipTurn (ip : Ip4) : (ipTurn ip m).slice 26 8 = ip.bytes ++ m.slice 26 4 := by
  have hdst : (ipTurn ip m).slice 30 4 = m.slice 26 4 := m.slice_turnRound_dst (own := ip.bytes) rfl (.inr le_rfl)
  have hsrc : (ipTurn ip m).slice 26 4 = ip.bytes := m.slice_turnRound_src (own := ip.bytes) rfl (.inr le_rfl)
  rw [Memory.slice_append _ 26 4 4, hsrc, hdst]

theorem slice_ipTurn_apart {b n : Nat} (ip : Ip4) (h : b + n ≤ 26 ∨ 34 ≤ b) : (ipTurn ip m).slice b n = m.slice b n :=
  m.slice_turnRound_apart (.inr le_rfl) (by simp; omega) (by simp; omega)

theorem slice_ipZeroed_apart {b n : Nat} (cfg : Config) (h : b + n ≤ 20 ∨ 23 ≤ b ∧ b + n ≤ 24 ∨ 26 ≤ b) :
    (ipZeroed cfg m).slice b n = m.slice b n :=
  Memory.slice_congr fun c _ _ => by
    have hfields : c ≠ 20 ∧ c ≠ 21 ∧ c ≠ 22 ∧ c ≠ 24 ∧ c ≠ 25 := by omega
    simp [rd_ipZeroed, hfields]

/-- `IpFinish` on flags, fragment and TTL (R179). -/
theorem slice_ipZeroed_frag (cfg : Config) : (ipZeroed cfg m).slice 20 3 = fragAndTtl cfg (m.slice 20 3) := by
  cases h : cfg.ipNormalise <;> simp [Memory.slice_succ, rd_ipZeroed, fragAndTtl, h]

/-- The header `IpFinish` leaves (R179). -/
theorem slice_ipFinish (cfg : Config) : (ipFinish cfg m).slice 14 20 =
    ipHeader cfg (m.slice 14 6 ++ fragAndTtl cfg (m.slice 20 3) ++ m.slice 23 1) (m.slice 26 8) := by
  have hzero : (ipZeroed cfg m).rd16 24 = 0#16 := by simp [Memory.rd16, rd_ipZeroed, be16]
  have hbefore : (ipZeroed cfg m).slice 14 10 = m.slice 14 6 ++ fragAndTtl cfg (m.slice 20 3) ++ m.slice 23 1 := by
    rw [Memory.slice_append _ 14 9 1, Memory.slice_append _ 14 6 3, slice_ipZeroed_apart m cfg (.inl le_rfl),
      slice_ipZeroed_frag, slice_ipZeroed_apart m cfg (.inr (.inl ⟨le_rfl, le_rfl⟩))]
  have hafter : (ipZeroed cfg m).slice 26 8 = m.slice 26 8 := slice_ipZeroed_apart m cfg (.inr (.inr le_rfl))
  rw [← hbefore, ← hafter]
  exact Memory.slice_storeCksum (ipZeroed cfg m) (off := 14) (p := 0) (k := 10) 8 cfg .ip hzero

theorem slice_ipFinish_apart {b n : Nat} (cfg : Config) (h : b + n ≤ 14 ∨ 26 ≤ b) : (ipFinish cfg m).slice b n = m.slice b n := by
  rw [ipFinish, Memory.slice_storeCksum_apart _ _ _ _ _ (by simp; omega), slice_ipZeroed_apart _ _ (by omega)]

/-- The header `IpReply` leaves (R178). -/
theorem slice_ipReply (cfg : Config) (ip : Ip4) : (ipReply cfg ip m).slice 14 20 =
    ipHeader cfg (m.slice 14 6 ++ fragAndTtl cfg (m.slice 20 3) ++ m.slice 23 1) (ip.bytes ++ m.slice 26 4) := by
  rw [ipReply, slice_ipFinish, slice_ipTurn, slice_ipTurn_apart _ _ (.inl (by decide)), slice_ipTurn_apart _ _ (.inl (by decide)),
    slice_ipTurn_apart _ _ (.inl (by decide))]

theorem slice_ipReply_addresses (cfg : Config) (ip : Ip4) : (ipReply cfg ip m).slice 26 8 = ip.bytes ++ m.slice 26 4 := by
  rw [ipReply, slice_ipFinish_apart _ _ (.inr le_rfl), slice_ipTurn]

theorem slice_ipReply_apart {b n : Nat} (cfg : Config) (ip : Ip4) (h : b + n ≤ 14 ∨ 34 ≤ b) :
    (ipReply cfg ip m).slice b n = m.slice b n := by
  rw [ipReply, slice_ipFinish_apart _ _ (by omega), slice_ipTurn_apart _ _ (by omega)]

/-- The destination port of a reply is the request's source port (R200, R210). -/
theorem slice_portsTurn : (portsTurn m).slice 36 2 = m.slice 34 2 := by
  simp [Memory.slice_succ, rd_portsTurn]

theorem slice_portsTurn_apart {b n : Nat} (h : b + n ≤ 36 ∨ 38 ≤ b) : (portsTurn m).slice b n = m.slice b n :=
  Memory.slice_congr fun c _ _ => by rw [rd_portsTurn, if_neg (by omega), if_neg (by omega)]

/-- `IcmpPatch` byte by byte (R191). -/
theorem rd_icmpPatch (b : Nat) : (icmpPatch m).rd b =
    if b = 36 then m.rd 36 + 8#8
    else if b = 37 then (if 0xF7#8 < m.rd 36 then m.rd 37 + 1#8 else m.rd 37)
    else m.rd b := by
  unfold icmpPatch
  by_cases h : 0xF7#8 < m.rd 36
  · simp [h, Memory.rd_wr]
  · simp only [ICMP_CSUM, h, if_false, Memory.rd_wr]
    split_ifs with h36 h37
    · rfl
    · rw [h37]
    · rfl

theorem slice_icmpPatch_apart {b n : Nat} (h : b + n ≤ 36 ∨ 38 ≤ b) : (icmpPatch m).slice b n = m.slice b n :=
  Memory.slice_congr fun c _ _ => by rw [rd_icmpPatch, if_neg (by omega), if_neg (by omega)]

end

/-! ### A reply's Ethernet and IP headers -/

/-- The 34 header bytes of an IP reply, on a buffer whose Ethernet header is turned round and whose IP header is the request's but
for the total length (R176, R178). -/
theorem slice_ipReply_head {s : State} {m : Memory} {totlen : U16} (heth : m.slice 0 14 = replyEth s)
    (hver : m.slice 14 2 = s.buf.slice 14 2) (htot : m.slice 16 2 = bytes16 totlen) (hrest : ∀ b n, 18 ≤ b → b + n ≤ 30 →
      m.slice b n = s.buf.slice b n) :
    (ipReply s.cfg s.ip m).slice 0 34 = replyEth s ++ ipHeader s.cfg (replyIpStart s totlen) (replyAddresses s) := by
  have hstart : m.slice 14 6 = s.buf.slice 14 2 ++ bytes16 totlen ++ s.buf.slice 18 2 := by
    rw [Memory.slice_append _ 14 4 2, Memory.slice_append _ 14 2 2, hver, htot, hrest 18 2 (by decide) (by decide)]
  rw [Memory.slice_append _ 0 14 20, slice_ipReply_apart _ _ _ (.inl le_rfl), heth, slice_ipReply, hstart,
    hrest 20 3 (by decide) (by decide), hrest 23 1 (by decide) (by decide), hrest 26 4 (by decide) (by decide)]
  rfl

/-- The Ethernet header of a reply (R176). -/
theorem slice_ethReply_head (s : State) : (ethReply s.mac s.buf).slice 0 14 = replyEth s := by
  rw [Memory.slice_append _ 0 12 2, slice_ethReply, slice_ethReply_apart _ _ _ le_rfl]
  rfl

theorem length_fragAndTtl (cfg : Config) {before : List Byte} (h : before.length = 3) : (fragAndTtl cfg before).length = 3 := by
  unfold fragAndTtl
  split
  · rfl
  · exact h

theorem length_segment (cfg : Config) (kind : Kind) (addresses before after : List Byte) :
    (Claims.segment cfg kind addresses before after).length = before.length + 2 + after.length := by
  simp [Claims.segment, Nat.add_assoc]

/-- A reply's headers have 34 bytes (R91, R93). -/
theorem length_replyHead (s : State) (totlen : U16) :
    (replyEth s ++ ipHeader s.cfg (replyIpStart s totlen) (replyAddresses s)).length = 34 := by
  simp [replyEth, ipHeader, replyIpStart, replyAddresses, length_fragAndTtl]

/-! ### Buffers and states that hold a frame -/

/-- A buffer that holds a frame from offset 0 and is as before from the frame's end, read byte by byte. -/
theorem Memory.rd_of_holds {m m' : Memory} {frame : List Byte} (hin : m'.slice 0 frame.length = frame)
    (hout : ∀ n, m'.slice frame.length n = m.slice frame.length n) (a : Nat) : m'.rd a = (frame[a]?).getD (m.rd a) := by
  by_cases ha : a < frame.length
  · have hread := m'.getElem?_slice 0 frame.length a
    rw [hin, if_pos ha, Nat.zero_add] at hread
    rw [hread, Option.getD_some]
  · obtain ⟨k, rfl⟩ := Nat.exists_eq_add_of_le (not_lt.1 ha)
    have hlast := congrArg (·[k]?) (hout (k + 1))
    simp only [Memory.getElem?_slice, Nat.lt_succ_self, if_true, Option.some.injEq] at hlast
    rw [List.getElem?_eq_none (by omega), Option.getD_none, hlast]

/-- The state after a transcoder that left `m` in the buffer and `x` in `SUM` and sent `n` bytes, with `v` delivered (R30, R306). -/
def State.transcoded (s : State) (m : Memory) (x n : Nat) (v : U16) : State :=
  { s with buf := m, sum := x, txlog := s.txlog ++ [m.slice 0 n], res := v }

/-- A transcoder's run as a command (R126). -/
theorem exec_transcoded {i : Instr} {s : State} {m : Memory} {x n : Nat} {v : U16} (hs : Ready s) (hi : isInit i = false)
    (hrun : opBody i s = .done v (State.send n { s with buf := m, sum := x })) :
    exec i s = .next (s.transcoded m x n v) := exec_of_opBody_done hs hi hrun

/-- A transcoder writes `BUF`, `SUM`, `TXLOG` and `RES` only (R37). -/
theorem State.transcoded_row (s : State) (m : Memory) (x n : Nat) (v : U16) : s.transcoded m x n v =
    { s with buf := (s.transcoded m x n v).buf, sum := x, res := v, txlog := (s.transcoded m x n v).txlog } := rfl

/-- An operation that raises a fault before any write records the fault and nothing else (R292). -/
theorem exec_of_opBody_raised {i : Instr} {s : State} {f : Fault} (hs : Ready s) (hi : isInit i = false)
    (hrun : opBody i s = .raised f s) : exec i s = .next { s with fault := f.code } := by
  obtain ⟨hclear, hinited⟩ := hs
  rw [exec_eq_command hi, command_ready _ hclear hinited, hrun, Run.finish_raised, raise_of_clear f hclear]

/-- A transcoder that sends as many bytes as the frame its buffer holds sends that frame. -/
theorem State.transcoded_sends {s : State} {m : Memory} {frame : List Byte} (x : Nat) {n : Nat} {v : U16}
    (hn : frame.length = n) (hv : v.toNat = n) (hin : m.slice 0 n = frame) (hout : ∀ k, m.slice n k = s.buf.slice n k) :
    Sends s (s.transcoded m x n v) frame := by
  subst hn
  exact ⟨congrArg (fun f => s.txlog ++ [f]) hin, hv, Memory.rd_of_holds hin hout⟩

/-! ### ARP -/

/-- The protocol addresses of `ARP.REPLY`: this node's become the sender's, the request's sender's become the target's (R185). -/
theorem slice_arpTurn (m : Memory) (mac : Mac) (ip : Ip4) :
    ((m.turnRound 32 22 mac.bytes).turnRound 38 28 ip.bytes).slice 22 20 =
      mac.bytes ++ ip.bytes ++ m.slice 22 6 ++ m.slice 28 4 := by
  have hsha : (m.turnRound 32 22 mac.bytes).slice 22 6 = mac.bytes := m.slice_turnRound_src rfl (.inr (by decide))
  have htha : (m.turnRound 32 22 mac.bytes).slice 32 6 = m.slice 22 6 := m.slice_turnRound_dst rfl (.inr (by decide))
  have hspa : ∀ b : Memory, (b.turnRound 38 28 ip.bytes).slice 28 4 = ip.bytes := fun b =>
    b.slice_turnRound_src rfl (.inr (by decide))
  have htpa : ∀ b : Memory, (b.turnRound 38 28 ip.bytes).slice 38 4 = b.slice 28 4 := fun b =>
    b.slice_turnRound_dst rfl (.inr (by decide))
  rw [Memory.slice_append _ 22 16 4, Memory.slice_append _ 22 10 6, Memory.slice_append _ 22 6 4, htpa, hspa]
  simp [Memory.slice_turnRound_apart, hsha, htha]

theorem arpReplyFrame_eq (mac : Mac) (ip : Ip4) (m : Memory) : arpReplyFrame mac ip m =
    (((ethReply mac m).turnRound 32 22 mac.bytes).turnRound 38 28 ip.bytes).wr16 20 2#16 := rfl

/-- The frame `ARP.REPLY` leaves (R185). -/
theorem slice_arpReplyFrame (mac : Mac) (ip : Ip4) (m : Memory) : (arpReplyFrame mac ip m).slice 0 42 =
    m.slice 6 6 ++ mac.bytes ++ m.slice 12 8 ++ [0x00#8, 0x02#8] ++ mac.bytes ++ ip.bytes ++ m.slice 22 6 ++ m.slice 28 4 := by
  rw [arpReplyFrame_eq, Memory.slice_append _ 0 22 20, Memory.slice_append _ 0 20 2, Memory.slice_append _ 0 12 8]
  have hoper : bytes16 2#16 = [0x00#8, 0x02#8] := rfl
  simp [Memory.slice_wr16, Memory.slice_wr16_apart, slice_arpTurn, slice_ethReply, slice_ethReply_apart,
    Memory.slice_turnRound_apart, hoper]

theorem slice_arpReplyFrame_past (mac : Mac) (ip : Ip4) (m : Memory) (n : Nat) :
    (arpReplyFrame mac ip m).slice 42 n = m.slice 42 n := by
  simp [arpReplyFrame_eq, Memory.slice_wr16_apart, slice_ethReply_apart, Memory.slice_turnRound_apart]

theorem exec_arpReply {s : State} (hs : Ready s) :
    exec .arpReply s = .next (s.transcoded (arpReplyFrame s.mac s.ip s.buf) s.sum 42 42#16) :=
  exec_transcoded hs rfl rfl

/-- The fields `ARP.REQ` writes from the EtherType on stand side by side (R186). -/
theorem arpReqFrame_eq (mac : Mac) (ip : Ip4) (dmac : Mac) (tip : Ip4) (m : Memory) : arpReqFrame mac ip dmac tip m =
    (ethNew mac dmac m).wrBytes 12 ([0x08#8, 0x06#8] ++ arpRequestHeader ++ mac.bytes ++ ip.bytes ++
      [0#8, 0#8, 0#8, 0#8, 0#8, 0#8] ++ tip.bytes) := by
  simp [← Memory.wrBytes_append, arpReqFrame, arpRequestHeader]

/-- The frame `ARP.REQ` leaves (R186). -/
theorem slice_arpReqFrame (mac : Mac) (ip : Ip4) (dmac : Mac) (tip : Ip4) (m : Memory) :
    (arpReqFrame mac ip dmac tip m).slice 0 42 = dmac.bytes ++ mac.bytes ++
      [0x08#8, 0x06#8, 0x00#8, 0x01#8, 0x08#8, 0x00#8, 0x06#8, 0x04#8, 0x00#8, 0x01#8] ++ mac.bytes ++ ip.bytes ++
      [0#8, 0#8, 0#8, 0#8, 0#8, 0#8] ++ tip.bytes := by
  have hfields := (ethNew mac dmac m).slice_wrBytes 12 ([0x08#8, 0x06#8] ++ arpRequestHeader ++ mac.bytes ++ ip.bytes ++
    [0#8, 0#8, 0#8, 0#8, 0#8, 0#8] ++ tip.bytes)
  rw [arpReqFrame_eq, Memory.slice_append _ 0 12 30, Memory.slice_wrBytes_apart _ (b := 0) (n := 12) (.inl le_rfl), slice_ethNew]
  refine (congrArg (dmac.bytes ++ mac.bytes ++ ·) hfields).trans ?_
  simp [arpRequestHeader]

theorem slice_arpReqFrame_past (mac : Mac) (ip : Ip4) (dmac : Mac) (tip : Ip4) (m : Memory) (n : Nat) :
    (arpReqFrame mac ip dmac tip m).slice 42 n = m.slice 42 n := by
  rw [arpReqFrame_eq, Memory.slice_wrBytes_apart _ (.inr (by simp [arpRequestHeader])), slice_ethNew_apart _ _ _ _ (by decide)]

theorem exec_arpReq {s : State} (hs : Ready s) (dmac : Mac) (tip : Ip4) :
    exec (.arpReq dmac tip) s = .next (s.transcoded (arpReqFrame s.mac s.ip dmac tip s.buf) s.sum 42 42#16) :=
  exec_transcoded hs rfl rfl

/-! ### ICMP -/

theorem exec_icmpReply {s : State} (hs : Ready s) {len : U16} (hpos : len ≠ 0#16) (hcap : len.toNat ≤ s.cap) :
    exec (.icmpReply len) s = .next (s.transcoded (icmpReplyFrame s.cfg s.mac s.ip s.buf)
      ((ipZeroed s.cfg (icmpAddressed s.mac s.ip s.buf)).sumOf s.cfg .ip IP_VIHL 20) len.toNat len) := by
  rcases opIcmpReply_cases len s with ⟨hzero, -⟩ | ⟨-, hbeyond, -⟩ | ⟨-, -, hrun⟩
  · exact absurd hzero hpos
  · omega
  · exact exec_transcoded hs rfl hrun

theorem exec_icmpReply_badOperand {s : State} (hs : Ready s) : exec (.icmpReply 0#16) s = .next { s with fault := 5#8 } :=
  exec_of_opBody_raised (f := .badOperand) hs rfl rfl

theorem exec_icmpReply_bufferBounds {s : State} (hs : Ready s) {len : U16} (hcap : s.cap < len.toNat) :
    exec (.icmpReply len) s = .next { s with fault := 4#8 } := by
  rcases opIcmpReply_cases len s with ⟨rfl, -⟩ | ⟨-, -, hrun⟩ | ⟨-, hinside, -⟩
  · exact absurd hcap (Nat.not_lt_zero _)
  · exact exec_of_opBody_raised (f := .bufferBounds) hs rfl hrun
  · omega

theorem icmpReplyFrame_eq (s : State) : icmpReplyFrame s.cfg s.mac s.ip s.buf =
    icmpPatch ((ipReply s.cfg s.ip (ethReply s.mac s.buf)).wr 34 0x00#8) := rfl

/-- The bytes up to the checksum that `ICMP.REPLY` leaves (R190). -/
theorem slice_icmpReplyFrame_head (s : State) : (icmpReplyFrame s.cfg s.mac s.ip s.buf).slice 0 36 =
    replyEth s ++ ipHeader s.cfg (replyIpStart s (s.buf.rd16 16)) (replyAddresses s) ++ [0x00#8, s.buf.rd 35] := by
  have hsame : ∀ b n, 14 ≤ b → (ethReply s.mac s.buf).slice b n = s.buf.slice b n := fun b n hb =>
    slice_ethReply_apart _ _ _ (by omega)
  have hhead := slice_ipReply_head (m := ethReply s.mac s.buf) (slice_ethReply_head s) (hsame 14 2 (by decide))
    ((hsame 16 2 (by decide)).trans (s.buf.bytes16_rd16 16).symm) fun b n hb _ => hsame b n (by omega)
  have hcode : (ipReply s.cfg s.ip (ethReply s.mac s.buf)).slice 35 1 = [s.buf.rd 35] := by
    rw [slice_ipReply_apart _ _ _ (.inr (by decide)), hsame _ _ (by decide)]; rfl
  rw [icmpReplyFrame_eq, slice_icmpPatch_apart _ (.inl le_rfl), Memory.slice_append _ 0 34 2, Memory.slice_append _ 34 1 1]
  rw [Memory.slice_wr_apart _ _ (b := 0) (n := 34) (.inl le_rfl), hhead, Memory.slice_wr,
    Memory.slice_wr_apart _ _ (b := 35) (n := 1) (.inr le_rfl), hcode]
  rfl

/-- `ICMP.REPLY` patches the request's own checksum: nothing before the patch writes it (R190). -/
theorem rd_before_icmpPatch {s : State} {b : Nat} (hb : 36 ≤ b) :
    ((ipReply s.cfg s.ip (ethReply s.mac s.buf)).wr 34 0x00#8).rd b = s.buf.rd b := by
  rw [Memory.rd_wr_ne _ _ (by omega)]
  have hsame : (ipReply s.cfg s.ip (ethReply s.mac s.buf)).slice b 1 = s.buf.slice b 1 := by
    rw [slice_ipReply_apart _ _ _ (.inr (by omega)), slice_ethReply_apart _ _ _ (by omega)]
  exact List.head_eq_of_cons_eq hsame

/-- The patched checksum that `ICMP.REPLY` leaves (R190, R191). -/
theorem slice_icmpReplyFrame_checksum (s : State) : (icmpReplyFrame s.cfg s.mac s.ip s.buf).slice 36 2 = patchedIcmp s := by
  simp [icmpReplyFrame_eq, Memory.slice_succ, rd_icmpPatch, rd_before_icmpPatch, patchedIcmp]

theorem slice_icmpReplyFrame_past (s : State) (n : Nat) :
    (icmpReplyFrame s.cfg s.mac s.ip s.buf).slice 38 n = s.buf.slice 38 n := by
  rw [icmpReplyFrame_eq, slice_icmpPatch_apart _ (.inr le_rfl)]
  exact Memory.slice_congr fun b hb _ => rd_before_icmpPatch (by omega)

/-- The first 38 bytes `ICMP.REPLY` leaves (R190). -/
theorem slice_icmpReplyFrame (s : State) : (icmpReplyFrame s.cfg s.mac s.ip s.buf).slice 0 38 = echoReplyStart s := by
  rw [Memory.slice_append _ 0 36 2, slice_icmpReplyFrame_head, slice_icmpReplyFrame_checksum, echoReplyStart]

theorem rd16_icmpReplyFrame (s : State) : (icmpReplyFrame s.cfg s.mac s.ip s.buf).rd16 36 =
    be16 (s.buf.rd 36 + 8#8) (if 0xF7#8 < s.buf.rd 36 then s.buf.rd 37 + 1#8 else s.buf.rd 37) := by
  simp [Memory.rd16, icmpReplyFrame_eq, rd_icmpPatch, rd_before_icmpPatch]

/-- `IcmpPatch` as arithmetic on the checksum (R191): the carry of its low byte is lost. -/
theorem icmpPatch_toNat (a b : Byte) : (be16 (a + 8#8) (if 0xF7#8 < a then b + 1#8 else b)).toNat =
    if 0xF8 ≤ a.toNat ∧ b = 0xFF#8 then endAround (be16 a b).toNat 0x0800 - 0x0100 else endAround (be16 a b).toNat 0x0800 := by
  have ha := a.isLt
  have hb := b.isLt
  have hlt : 0xF7#8 < a ↔ 0xF8 ≤ a.toNat := by bv_omega
  have hff : b = 0xFF#8 ↔ b.toNat = 0xFF := by bv_omega
  simp only [be16_toNat, hlt, hff, endAround, BitVec.toNat_add, apply_ite BitVec.toNat, BitVec.toNat_ofNat]
  split_ifs <;> omega

/-! ### UDP -/

section
variable (s : State) (sport : U16) (payload : List Byte)

/-- The writes of `UDP.REPLY` up to its checksum (R200), each a step with a rule above. -/
theorem udpZeroed_eq : udpZeroed s.cfg s.mac s.ip sport payload s.buf =
    (((((portsTurn (ipReply s.cfg s.ip ((ethReply s.mac s.buf).wr16 16 (u16 (28 + payload.length))))).wr16 34 sport).wrBytes 42
      payload).wr16 38 (u16 (8 + payload.length))).wr16 40 0#16) := rfl

theorem slice_udpZeroed_head : (udpZeroed s.cfg s.mac s.ip sport payload s.buf).slice 0 34 =
    replyEth s ++ ipHeader s.cfg (replyIpStart s (u16 (28 + payload.length))) (replyAddresses s) := by
  have hhead := slice_ipReply_head (s := s) (m := (ethReply s.mac s.buf).wr16 16 (u16 (28 + payload.length)))
    (by rw [Memory.slice_wr16_apart _ _ (.inl (by decide)), slice_ethReply_head])
    (by rw [Memory.slice_wr16_apart _ _ (b := 14) (n := 2) (.inl le_rfl), slice_ethReply_apart _ _ _ (by decide)])
    (Memory.slice_wr16 _ _ _)
    fun b n hb _ => by rw [Memory.slice_wr16_apart _ _ (.inr hb), slice_ethReply_apart _ _ _ (by omega)]
  simp (disch := omega) only [udpZeroed_eq, Memory.slice_wr16_apart, Memory.slice_wrBytes_apart, slice_portsTurn_apart, hhead]

theorem slice_udpZeroed_addresses : (udpZeroed s.cfg s.mac s.ip sport payload s.buf).slice 26 8 = replyAddresses s := by
  simp (disch := omega) only [udpZeroed_eq, Memory.slice_wr16_apart, Memory.slice_wrBytes_apart, slice_portsTurn_apart,
    slice_ipReply_addresses, slice_ethReply_apart]
  rfl

/-- The UDP header before its checksum (R200). -/
theorem slice_udpZeroed_header : (udpZeroed s.cfg s.mac s.ip sport payload s.buf).slice 34 6 =
    bytes16 sport ++ s.buf.slice 34 2 ++ bytes16 (u16 (8 + payload.length)) := by
  rw [Memory.slice_append _ 34 4 2, Memory.slice_append _ 34 2 2]
  simp (disch := omega) only [Nat.reduceAdd, udpZeroed_eq, Memory.slice_wr16, Memory.slice_wr16_apart,
    Memory.slice_wrBytes_apart, slice_portsTurn, slice_ipReply_apart, slice_ethReply_apart]

theorem slice_udpZeroed_payload : (udpZeroed s.cfg s.mac s.ip sport payload s.buf).slice 42 payload.length = payload := by
  simp (disch := omega) only [udpZeroed_eq, Memory.slice_wr16_apart, Memory.slice_wrBytes]

theorem slice_udpZeroed_past (n : Nat) : (udpZeroed s.cfg s.mac s.ip sport payload s.buf).slice (42 + payload.length) n =
    s.buf.slice (42 + payload.length) n := by
  simp (disch := omega) only [udpZeroed_eq, Memory.slice_wr16_apart, Memory.slice_wrBytes_apart, slice_portsTurn_apart,
    slice_ipReply_apart, slice_ethReply_apart]

/-- The datagram `UDP.REPLY` leaves (R200): the headers, and the segment its checksum completes. -/
theorem slice_udpReply : ((udpZeroed s.cfg s.mac s.ip sport payload s.buf).storeCksum s.cfg .udp IP_SRC (16 + payload.length)
    UDP_CSUM).slice 0 (42 + payload.length) = udpFrame s sport payload := by
  obtain ⟨-, hzero⟩ := udpZeroed_zeroed s.cfg s.mac s.ip sport payload s.buf
  have hsegment := Memory.slice_storeCksum (udpZeroed s.cfg s.mac s.ip sport payload s.buf) (off := 26) (p := 8) (k := 6)
    payload.length s.cfg .udp hzero
  have hsplit : 42 + payload.length = 34 + (6 + 2 + payload.length) := by omega
  have hrange : 16 + payload.length = 8 + (6 + 2 + payload.length) := by omega
  rw [hsplit, hrange, Memory.slice_append, Memory.slice_storeCksum_apart _ _ _ _ _ (.inl (by decide)), slice_udpZeroed_head]
  refine (congrArg (_ ++ ·) hsegment).trans ?_
  rw [slice_udpZeroed_addresses, slice_udpZeroed_header, slice_udpZeroed_payload, udpFrame]

theorem slice_udpReply_past (n : Nat) : ((udpZeroed s.cfg s.mac s.ip sport payload s.buf).storeCksum s.cfg .udp IP_SRC
    (16 + payload.length) UDP_CSUM).slice (42 + payload.length) n = s.buf.slice (42 + payload.length) n := by
  rw [Memory.slice_storeCksum_apart _ _ _ _ _ (.inr (by simp)), slice_udpZeroed_past]

theorem length_udpFrame : (udpFrame s sport payload).length = 42 + payload.length := by
  rw [udpFrame, List.length_append, length_replyHead, length_segment]
  show 34 + (6 + 2 + payload.length) = 42 + payload.length
  omega

end

/-- `UDP.REPLY` with the payload it copies, where the datagram fits (R200). -/
theorem exec_udpReply {s : State} (hs : Ready s) (sport : U16) {data payload : List Byte}
    (hpayload : data.take s.cfg.udpMax = payload) (hcap : 42 + payload.length ≤ s.cap) :
    exec (.udpReply sport data) s = .next (s.transcoded
      ((udpZeroed s.cfg s.mac s.ip sport payload s.buf).storeCksum s.cfg .udp IP_SRC (16 + payload.length) UDP_CSUM)
      ((udpZeroed s.cfg s.mac s.ip sport payload s.buf).sumOf s.cfg .udp IP_SRC (16 + payload.length))
      (42 + payload.length) (u16 (42 + payload.length))) := by
  subst hpayload
  rcases opUdpReply_cases sport data s with ⟨hbeyond, -⟩ | ⟨-, hrun⟩
  · omega
  · exact exec_transcoded hs rfl hrun

theorem exec_udpReply_bufferBounds {s : State} (hs : Ready s) (sport : U16) {data : List Byte}
    (hcap : s.cap < 42 + (data.take s.cfg.udpMax).length) :
    exec (.udpReply sport data) s = .next { s with fault := 4#8 } := by
  rcases opUdpReply_cases sport data s with ⟨-, hrun⟩ | ⟨hinside, -⟩
  · exact exec_of_opBody_raised (f := .bufferBounds) hs rfl hrun
  · omega

end Sys2Proof.Machine

namespace Sys2Proof.Proofs

open Sys2Proof.Machine Sys2Proof.Claims

/-- Settles O34: three turn-rounds and the opcode give the reply, all of it below offset 42. -/
theorem arpReplySendsReply : Obligations.ArpReplySendsReply := fun s hs =>
  ⟨rfl, _, exec_arpReply hs, s.transcoded_row _ _ _ _, State.transcoded_sends _ (by simp) rfl
    (slice_arpReplyFrame s.mac s.ip s.buf) (slice_arpReplyFrame_past s.mac s.ip s.buf)⟩

/-- Settles O35: the fields stand side by side from offset 0, so nothing of the old buffer shows. -/
theorem arpRequestSendsRequest : Obligations.ArpRequestSendsRequest := fun dmac tip s hs =>
  ⟨rfl, _, exec_arpReq hs dmac tip, s.transcoded_row _ _ _ _, State.transcoded_sends _ (by simp) rfl
    (slice_arpReqFrame s.mac s.ip dmac tip s.buf) (slice_arpReqFrame_past s.mac s.ip dmac tip s.buf)⟩

/-- Settles O36: the rewrite ends at offset 38, and both faults are raised before it. -/
theorem icmpReplySendsEcho : Obligations.IcmpReplySendsEcho := by
  intro len s hs
  refine ⟨rfl, fun hpos hcap => ⟨_, exec_icmpReply hs hpos hcap, rfl, ?_⟩, fun hzero => ?_, exec_icmpReply_bufferBounds hs⟩
  · have hlen : (echoReplyStart s).length = 38 := by
      rw [echoReplyStart, List.length_append, List.length_append, length_replyHead]; rfl
    exact Memory.rd_of_holds (hlen ▸ slice_icmpReplyFrame s) (hlen ▸ slice_icmpReplyFrame_past s)
  · rw [hzero, exec_icmpReply_badOperand hs]

/-- Settles O37: the checksum patched is the request's own. -/
theorem icmpPatchExactness : Obligations.IcmpPatchExactness := by
  intro len s hs hpos hcap
  refine ⟨_, exec_icmpReply hs hpos hcap, ?_⟩
  exact (congrArg BitVec.toNat (rd16_icmpReplyFrame s)).trans (icmpPatch_toNat _ _)

/-- Settles O38: the payload copied is `data.take UDP_MAX`, of `min(n, UDP_MAX)` bytes. -/
theorem udpReplySendsDatagram : Obligations.UdpReplySendsDatagram := by
  intro sport data s hs
  have hm : min data.length s.cfg.udpMax = (data.take s.cfg.udpMax).length := by rw [List.length_take, Nat.min_comm]
  rw [hm]
  refine ⟨rfl, fun hcap => ⟨_, exec_udpReply hs sport rfl hcap, s.transcoded_row _ _ _ _, ?_⟩,
    exec_udpReply_bufferBounds hs sport⟩
  exact State.transcoded_sends _ (length_udpFrame s sport _) (u16_toNat (hcap.trans s.cap_le)) (slice_udpReply s sport _)
    (slice_udpReply_past s sport _)

end Sys2Proof.Proofs
end

section
/-! PROOFS. What a step does at most (R180, R280, R306): one receive, one handler call and two sends. -/

namespace Sys2Proof.Machine

open Sys2Proof.Claims

/-! ### Sends -/

/-- From `s` to `t` at most `count` frames were sent, each of 1 to `CAP` bytes (R180, R306). -/
def State.SendsUpTo (s : State) (count : Nat) (t : State) : Prop :=
  ∃ new : List (List Byte), t.txlog = s.txlog ++ new ∧ new.length ≤ count ∧ ∀ f ∈ new, 1 ≤ f.length ∧ f.length ≤ s.cap

theorem State.SendsUpTo.of_txlog_eq {s t : State} (count : Nat) (h : t.txlog = s.txlog) : s.SendsUpTo count t :=
  ⟨[], by rw [h, List.append_nil], Nat.zero_le _, fun _ hf => absurd hf List.not_mem_nil⟩

theorem State.SendsUpTo.of_send {s u : State} {n : Nat} (count : Nat) (h : u.txlog = s.txlog) (hpos : 1 ≤ n) (hcap : n ≤ s.cap) :
    s.SendsUpTo (count + 1) (u.send n) := by
  refine ⟨[u.buf.slice 0 n], by rw [State.send_txlog, h], Nat.le_add_left 1 count, fun f hf => ?_⟩
  rw [List.mem_singleton.1 hf, Memory.length_slice]
  exact ⟨hpos, hcap⟩

theorem State.SendsUpTo.trans {s t u : State} {j k : Nat} (h : s.SendsUpTo j t) (hcap : t.cap = s.cap) (h' : t.SendsUpTo k u) :
    s.SendsUpTo (j + k) u := by
  obtain ⟨xs, hxs, hj, hfx⟩ := h
  obtain ⟨ys, hys, hk, hfy⟩ := h'
  refine ⟨xs ++ ys, by rw [hys, hxs, List.append_assoc], by rw [List.length_append]; omega, fun f hf => ?_⟩
  rcases List.mem_append.1 hf with hf | hf
  · exact hfx f hf
  · exact hcap ▸ hfy f hf

theorem State.acked_sendsUpTo (s : State) (count : Nat) : s.SendsUpTo (count + 1) s.acked :=
  .of_send count rfl (by decide) (Nat.le_trans (by decide) s.cap_ge)

theorem State.answered_sendsUpTo {s : State} {dlen : U16} (count : Nat) (h : 54 + dlen.toNat ≤ s.cap) :
    s.SendsUpTo (count + 1) (s.answered dlen) :=
  .of_send count rfl (by omega) h

/-- Rule 8 sends the acknowledgment and the response (R276). -/
theorem State.exchange_sendsUpTo (s : State) (req : List Byte) {resp : List Byte} (h : 54 + resp.length ≤ s.cap) :
    s.SendsUpTo 2 ((s.filled req resp).acked.answered (u16 resp.length)) := by
  have hlen : (u16 resp.length).toNat = resp.length := u16_toNat (by have := s.cap_le; omega)
  have hack : s.SendsUpTo 1 (s.filled req resp).acked := (s.filled req resp).acked_sendsUpTo 0
  exact hack.trans rfl (State.answered_sendsUpTo 0 (by rw [hlen]; exact h))

theorem DispatchEnd.sendsUpTo {r : State} {run : Run} (h : DispatchEnd r run) : run.ends (r.SendsUpTo 2) := by
  have hcap := r.cap_ge
  cases h with
  | dropped | bareAck | requestBeyond | responseBeyond => exact .of_txlog_eq 2 rfl
  | arpReply => exact .of_send 1 rfl (by decide) (by omega)
  | echoReply hn hc => exact .of_send 1 rfl (by bv_omega) hc
  | synack => exact .of_send 1 rfl (by decide) hcap
  | bareFin => exact r.derived.acked_sendsUpTo 1
  | exchange req resp hfits => exact r.derived.exchange_sendsUpTo req hfits

theorem opBody_sendsUpTo (i : Instr) (s : State) : (opBody i s).ends (s.SendsUpTo 2) := by
  have hcap := s.cap_ge
  cases htx : transmits i with
  | false =>
    exact Run.ends_mono (opBody_row i s) fun t ht => .of_txlog_eq 2 ((congrArg State.txlog ht).trans (opRow_txlog htx s t))
  | true =>
    cases i with
    | arpReply | arpReq | tcpSynack => exact .of_send 1 rfl (by decide) (by omega)
    | icmpReply len =>
      show (opIcmpReply len s).ends _
      rcases opIcmpReply_cases len s with ⟨-, e⟩ | ⟨-, -, e⟩ | ⟨hn, hc, e⟩ <;> rw [e]
      · exact .of_txlog_eq 2 rfl
      · exact .of_txlog_eq 2 rfl
      · exact .of_send 1 rfl (by bv_omega) hc
    | udpReply sport data =>
      show (opUdpReply sport data s).ends _
      rcases opUdpReply_cases sport data s with ⟨-, e⟩ | ⟨hc, e⟩ <;> rw [e]
      · exact .of_txlog_eq 2 rfl
      · exact .of_send 1 rfl (by omega) hc
    | tcpAck =>
      show (opTcpAck s).ends _
      rcases opTcpAck_cases s with ⟨-, e⟩ | ⟨-, e⟩ <;> rw [e]
      · exact s.acked_sendsUpTo 1
      · exact .of_txlog_eq 2 rfl
    | tcpAckdata dlen =>
      show (opTcpAckdata dlen s).ends _
      rcases opTcpAckdata_cases dlen s with ⟨-, e⟩ | ⟨hc, e⟩ <;> rw [e]
      · exact .of_txlog_eq 2 rfl
      · exact State.answered_sendsUpTo 1 hc
    | tcpClient dmac dip dport sport flags mss clrack ackadv dlen =>
      show (opTcpClient dmac dip dport sport flags mss clrack ackadv dlen s).ends _
      rcases opTcpClient_cases dmac dip dport sport flags mss clrack ackadv dlen s with ⟨-, e⟩ | ⟨hc, e⟩ <;> rw [e]
      · exact .of_txlog_eq 2 rfl
      · exact .of_send 1 rfl (by omega) hc
    | dispatch => exact (opDispatch_end s).sendsUpTo
    | _ => cases htx

/-! ### Receives and handler calls -/

/-- From `s` to `t` at most one frame was received and at most one request handed to the handler (R280). -/
def State.TakesUpToOne (s t : State) : Prop :=
  (t.rx = s.rx ∨ t.rx = s.rx.tail) ∧ (t.reqlog = s.reqlog ∨ ∃ q, t.reqlog = s.reqlog ++ [q])

/-- Rule 8 hands the handler one request; nothing after the receive takes another frame (R276). -/
theorem DispatchEnd.takesUpToOne {s : State} {run : Run} (h : DispatchEnd s.linkReceive run) : run.ends s.TakesUpToOne := by
  cases h with
  | dropped | bareAck | requestBeyond => exact ⟨.inr rfl, .inl rfl⟩
  | arpReply | echoReply | synack | bareFin => exact ⟨.inr rfl, .inl (by simp [State.acked, State.derived])⟩
  | responseBeyond req => exact ⟨.inr rfl, .inr ⟨req, rfl⟩⟩
  | exchange req resp => exact ⟨.inr rfl, .inr ⟨req, by simp [State.answered, State.acked, State.filled, State.derived]⟩⟩

theorem opBody_takesUpToOne (i : Instr) (s : State) : (opBody i s).ends s.TakesUpToOne := by
  cases hr : receives i with
  | false =>
    have hi : i ≠ .dispatch := by rintro rfl; cases hr
    refine Run.ends_mono (opBody_row i s) fun t ht => ?_
    obtain ⟨-, hrx⟩ := opRow_link hr s t
    exact ⟨.inl ((congrArg State.rx ht).trans hrx), .inl ((congrArg State.reqlog ht).trans (opRow_reqlog hi s t))⟩
  | true =>
    cases i with
    | recv => exact ⟨.inr rfl, .inl rfl⟩
    | dispatch => exact (opDispatch_end s).takesUpToOne
    | _ => cases hr

/-! ### A step -/

theorem Run.ends_and {P Q : State → Prop} {r : Run} (hP : r.ends P) (hQ : r.ends Q) : r.ends fun u => P u ∧ Q u := by
  cases r with
  | done v u => exact ⟨hP, hQ⟩
  | raised f u => exact ⟨hP, hQ⟩

/-- What holds of the state before a step, and of the state every operation's body ends in from there, holds after the step, if
neither the queue, the responses, `RES` nor `FAULT` matters to it. -/
theorem step_of_opBody {P : State → Prop} {s t : State} (hs : P s) (htake : ∀ rest, P (s.withCommands rest))
    (hraise : ∀ u f, P u → P (raise f u)) (hres : ∀ u v, P u → P { u with res := v }) (hrespond : ∀ u, P u → P u.respond)
    (hbody : ∀ i rest, (opBody i (s.withCommands rest)).ends P) (h : step s = .next t) : P t := by
  rcases step_cases h with ⟨-, rfl⟩ | ⟨c, rest, -, rfl⟩ | ⟨c, rest, i, u, -, -, hu, rfl⟩
  · exact hs
  · exact hrespond _ (hraise _ _ (htake rest))
  · refine hrespond _ ?_
    rcases exec_cases hu with ⟨-, rfl⟩ | ⟨-, -, rfl⟩ | ⟨-, -, rfl⟩
    · exact htake rest
    · exact hraise _ _ (htake rest)
    · exact Run.finish_of_ends (hbody i rest) hres hraise

end Sys2Proof.Machine

namespace Sys2Proof.Proofs

open Sys2Proof.Machine

/-- Settles O22: the queue, the response and a fault touch neither the logs nor the stream, and no operation's body exceeds the
bounds. -/
theorem stepIsBounded : Obligations.StepIsBounded := by
  intro s t h
  refine step_of_opBody (P := fun u => s.SendsUpTo 2 u ∧ s.TakesUpToOne u) ⟨.of_txlog_eq 2 rfl, .inl rfl, .inl rfl⟩
    (fun _ => ⟨.of_txlog_eq 2 rfl, .inl rfl, .inl rfl⟩) (fun u f hu => ?_) (fun _ _ hu => hu) (fun _ hu => hu)
    (fun i rest => ?_) h
  · rw [raise_eq_with_fault]
    exact hu
  · exact Run.ends_and (opBody_sendsUpTo i _) (opBody_takesUpToOne i _)

end Sys2Proof.Proofs
end

section
/-! PROOFS. The frames of the TCP transcoders, byte for byte, and the text `FILL` places (43_transcoders_tcp.md): what each shared
step leaves in a range of the buffer, the segments assembled from the ranges, and the two segments of a data exchange. -/

namespace Sys2Proof.Machine

open Sys2Proof.Claims

/-! ### 32-bit fields -/

theorem bytes32_append (x y : U16) : bytes32 (x ++ y) = bytes16 x ++ bytes16 y := by
  have hhigh : ∀ k, 16 ≤ k → (x ++ y : BitVec (16 + 16)).extractLsb' k 8 = x.extractLsb' (k - 16) 8 := fun _ hk =>
    BitVec.extractLsb'_append_eq_of_le hk
  have hlow : ∀ k, k + 8 ≤ 16 → (x ++ y : BitVec (16 + 16)).extractLsb' k 8 = y.extractLsb' k 8 := fun _ hk =>
    BitVec.extractLsb'_append_eq_of_add_le hk
  calc bytes32 (x ++ y)
      = [x.extractLsb' (24 - 16) 8, x.extractLsb' (16 - 16) 8, y.extractLsb' 8 8, y.extractLsb' 0 8] := by
        rw [← hhigh 24 (by decide), ← hhigh 16 (by decide), ← hlow 8 (by decide), ← hlow 0 (by decide)]
        rfl
    _ = bytes16 x ++ bytes16 y := rfl

/-- The bytes of a big-endian number are those it was read from (R64, R65). -/
theorem bytes32_be32 (a b c d : Byte) : bytes32 (be32 a b c d) = [a, b, c, d] := by
  rw [be32, bytes32_append, bytes16, bytes16, hi_be16, lo_be16, hi_be16, lo_be16]
  rfl

theorem bytes32_initialSeq (seq : Byte) : bytes32 (initialSeq seq) = [0x00#8, 0x00#8, seq, 0x00#8] := bytes32_be32 _ _ _ _

section
variable (m : Memory)

theorem Memory.slice_four (a : Nat) : m.slice a 4 = [m.rd a, m.rd (a + 1), m.rd (a + 2), m.rd (a + 3)] := rfl

theorem Memory.bytes32_rd32 (a : Nat) : bytes32 (m.rd32 a) = m.slice a 4 := bytes32_be32 _ _ _ _

theorem Memory.rd32_congr {m m' : Memory} {a : Nat} (h : m'.slice a 4 = m.slice a 4) : m'.rd32 a = m.rd32 a := by
  simp only [Memory.slice_four, List.cons.injEq, and_true] at h
  obtain ⟨h0, h1, h2, h3⟩ := h
  rw [Memory.rd32, h0, h1, h2, h3, Memory.rd32]

theorem Memory.slice_wr32 (a : Nat) (v : U32) : (m.wr32 a v).slice a 4 = bytes32 v := m.slice_wrBytes a (bytes32 v)

theorem Memory.slice_wr32_apart {a b n : Nat} (v : U32) (h : b + n ≤ a ∨ a + 4 ≤ b) :
    (m.wr32 a v).slice b n = m.slice b n := m.slice_wrBytes_apart h

/-- A field written as two bytes. -/
theorem Memory.slice_wrBytes_pair (a : Nat) (x y : Byte) : (m.wrBytes a [x, y]).slice a 2 = [x, y] := m.slice_wrBytes a [x, y]

theorem Memory.slice_wrBytes_pair_apart {a b n : Nat} (x y : Byte) (h : b + n ≤ a ∨ a + 2 ≤ b) :
    (m.wrBytes a [x, y]).slice b n = m.slice b n := m.slice_wrBytes_apart h

/-- An address field. -/
theorem Memory.slice_wrIp (a : Nat) (p : Ip4) : (m.wrBytes a p.bytes).slice a 4 = p.bytes := m.slice_wrBytes a p.bytes

theorem Memory.slice_wrIp_apart {a b n : Nat} (p : Ip4) (h : b + n ≤ a ∨ a + 4 ≤ b) :
    (m.wrBytes a p.bytes).slice b n = m.slice b n := m.slice_wrBytes_apart h

/-- One byte inside a range. -/
theorem Memory.getElem?_slice_of_slice_one {n k : Nat} {v : Byte} (h : m.slice k 1 = [v]) (hk : k < n) :
    (m.slice 0 n)[k]? = some v := by
  rw [Memory.getElem?_slice, if_pos hk, Nat.zero_add, List.head_eq_of_cons_eq h]

theorem Memory.take_drop_slice {a n k j : Nat} (h : k + j ≤ n) : ((m.slice a n).drop k).take j = m.slice (a + k) j := by
  rw [Memory.drop_slice, Memory.take_slice _ _ (by omega)]

/-! ### Ranges under the steps of the TCP transcoders -/

/-- `IpFinish` on the fields before flags and fragment (R179). -/
theorem slice_ipFinish_start {b n : Nat} (cfg : Config) (h : b + n ≤ 20) : (ipFinish cfg m).slice b n = m.slice b n := by
  rw [ipFinish, Memory.slice_storeCksum_apart _ _ _ _ _ (by simp; omega), slice_ipZeroed_apart _ _ (.inl h)]

/-- The header-length byte (R98, R210, R235). -/
theorem slice_tcpOption (cfg : Config) (mss : Bool) :
    (tcpOption cfg mss m).slice 46 1 = [if mss then 0x60#8 else 0x50#8] := by
  cases mss with
  | false => exact Memory.slice_wr _ _ _
  | true => exact Memory.slice_wr _ _ _

/-- The MSS option, where there is one (R98). -/
theorem slice_tcpOption_option (cfg : Config) (mss : Bool) :
    (tcpOption cfg mss m).slice 54 (optionBytes mss) = if mss then mssOption cfg.mss else [] := by
  cases mss with
  | false => rfl
  | true =>
    show ((m.wrBytes 54 (mssOption cfg.mss)).wr 46 0x60#8).slice 54 4 = mssOption cfg.mss
    rw [Memory.slice_wr_apart _ _ (.inr (by decide))]
    exact m.slice_wrBytes 54 (mssOption cfg.mss)

theorem slice_tcpOption_apart {b n : Nat} (cfg : Config) (mss : Bool)
    (h : b + n ≤ 46 ∨ 47 ≤ b ∧ b + n ≤ 54 ∨ 54 + optionBytes mss ≤ b) : (tcpOption cfg mss m).slice b n = m.slice b n := by
  cases mss with
  | false =>
    have hb : b + n ≤ 46 ∨ 47 ≤ b ∧ b + n ≤ 54 ∨ 54 ≤ b := h
    exact m.slice_wr_apart (a := 46) _ (by omega)
  | true =>
    show ((m.wrBytes 54 (mssOption cfg.mss)).wr 46 0x60#8).slice b n = m.slice b n
    have hb : b + n ≤ 46 ∨ 47 ≤ b ∧ b + n ≤ 54 ∨ 58 ≤ b := h
    have hlen : (mssOption cfg.mss).length = 4 := rfl
    rw [Memory.slice_wr_apart _ _ (by omega), Memory.slice_wrBytes_apart _ (by omega)]

/-- The writes of `TcpHead` (R210), each a step with a rule: the peer's two numbers are read before either is written. -/
theorem tcpHead_eq (cfg : Config) (port seq : Byte) (adv : U16) (mss newseq : Bool) :
    tcpHead cfg port seq adv mss newseq m = tcpOption cfg mss (((((portsTurn m).wrBytes 34 [0x00#8, port]).wr32 42
      (m.rd32 38 + adv.setWidth 32)).wr32 38 (if newseq then initialSeq seq else m.rd32 42)).wr16 50 0#16) := by
  have hpeer : ∀ a, 38 ≤ a → ((portsTurn m).wrBytes 34 [0x00#8, port]).rd32 a = m.rd32 a := fun a ha => by
    apply Memory.rd32_congr
    rw [Memory.slice_wrBytes_pair_apart _ _ _ (by omega), slice_portsTurn_apart _ (by omega)]
  rw [← hpeer 38 (by decide), ← hpeer 42 (by decide)]
  rfl

section
variable (cfg : Config) (port seq : Byte) (adv : U16) (mss newseq : Bool)

/-- Ports, sequence number and acknowledgment number of a reply (R210, R211). -/
theorem slice_tcpHead : (tcpHead cfg port seq adv mss newseq m).slice 34 12 =
    [0x00#8, port] ++ m.slice 34 2 ++ (if newseq then [0x00#8, 0x00#8, seq, 0x00#8] else m.slice 42 4) ++
      bytes32 (m.rd32 38 + adv.setWidth 32) := by
  have hseq : bytes32 (if newseq then initialSeq seq else m.rd32 42) =
      if newseq then [0x00#8, 0x00#8, seq, 0x00#8] else m.slice 42 4 := by
    rw [apply_ite bytes32, bytes32_initialSeq, Memory.bytes32_rd32]
  rw [Memory.slice_append _ 34 8 4, Memory.slice_append _ 34 4 4, Memory.slice_append _ 34 2 2, ← hseq]
  simp (disch := omega) only [Nat.reduceAdd, tcpHead_eq, slice_tcpOption_apart, Memory.slice_wr16_apart, Memory.slice_wr32,
    Memory.slice_wr32_apart, Memory.slice_wrBytes_pair, Memory.slice_wrBytes_pair_apart, slice_portsTurn]

theorem slice_tcpHead_length : (tcpHead cfg port seq adv mss newseq m).slice 46 1 = [if mss then 0x60#8 else 0x50#8] := by
  rw [tcpHead_eq, slice_tcpOption]

theorem slice_tcpHead_option : (tcpHead cfg port seq adv mss newseq m).slice 54 (optionBytes mss) =
    if mss then mssOption cfg.mss else [] := by
  rw [tcpHead_eq, slice_tcpOption_option]

theorem slice_tcpHead_apart {b n : Nat}
    (h : b + n ≤ 34 ∨ 47 ≤ b ∧ b + n ≤ 50 ∨ 52 ≤ b ∧ b + n ≤ 54 ∨ 54 + optionBytes mss ≤ b) :
    (tcpHead cfg port seq adv mss newseq m).slice b n = m.slice b n := by
  simp (disch := omega) only [tcpHead_eq, slice_tcpOption_apart, Memory.slice_wr16_apart, Memory.slice_wr32_apart,
    Memory.slice_wrBytes_pair_apart, slice_portsTurn_apart]

end

end

/-- The headers of an IP reply with a new total length, on a buffer whose first 34 bytes `EthReply` left (R176, R178). -/
theorem slice_ipReply_wr16_head {s : State} {m : Memory} (totlen : U16)
    (h : ∀ b n, b + n ≤ 34 → m.slice b n = (ethReply s.mac s.buf).slice b n) :
    (ipReply s.cfg s.ip (m.wr16 16 totlen)).slice 0 34 =
      replyEth s ++ ipHeader s.cfg (replyIpStart s totlen) (replyAddresses s) := by
  have hsame : ∀ b n, 14 ≤ b → b + n ≤ 34 → m.slice b n = s.buf.slice b n := fun b n hb hn =>
    (h b n hn).trans (slice_ethReply_apart _ _ _ (by omega))
  refine slice_ipReply_head ?_ ?_ (Memory.slice_wr16 _ _ _) fun b n hb hn => ?_
  · rw [Memory.slice_wr16_apart _ _ (.inl (by decide)), h 0 14 (by decide), slice_ethReply_head]
  · rw [Memory.slice_wr16_apart _ _ (.inl (by decide)), hsame 14 2 (by decide) (by decide)]
  · rw [Memory.slice_wr16_apart _ _ (.inr hb), hsame b n (by omega) (by omega)]

theorem slice_ipReply_wr16_addresses {s : State} {m : Memory} (totlen : U16)
    (h : ∀ b n, b + n ≤ 34 → m.slice b n = (ethReply s.mac s.buf).slice b n) :
    (ipReply s.cfg s.ip (m.wr16 16 totlen)).slice 26 8 = replyAddresses s := by
  rw [slice_ipReply_addresses, Memory.slice_wr16_apart _ _ (.inr (by decide)), h 26 4 (by decide),
    slice_ethReply_apart _ _ _ (by decide), replyAddresses]

/-! ### Sending a segment -/

/-- The state after a TCP transcoder completed: the segment with `j` bytes past its 20 header bytes was checksummed in `z` and sent,
and its length delivered (R30, R153, R306). -/
def State.segmentSent (s : State) (z : Memory) (j : Nat) : State :=
  s.transcoded (z.storeCksum s.cfg .tcp 26 (28 + j) 50) (z.sumOf s.cfg .tcp 26 (28 + j)) (54 + j) (u16 (54 + j))

/-- A TCP transcoder's run as a command (R126). -/
theorem exec_segmentSent {i : Instr} {s u : State} {z : Memory} {j : Nat} (hs : Ready s) (hi : isInit i = false)
    (hrun : opBody i s = .done (u16 (54 + j)) (u.tcpSend z (28 + j) (54 + j))) : exec i s = .next (u.segmentSent z j) :=
  exec_of_opBody_done hs hi hrun

/-- A TCP transcoder writes `BUF`, `SUM`, `TXLOG` and `RES` only, besides the counters it has advanced (R37). -/
theorem State.segmentSent_row (s : State) (z : Memory) (j : Nat) : s.segmentSent z j =
    { s with buf := (s.segmentSent z j).buf, sum := (s.segmentSent z j).sum, res := u16 (54 + j),
             txlog := (s.segmentSent z j).txlog } := rfl

/-- The frame a TCP transcoder sends is assembled from the ranges of the buffer its checksum is evaluated on. -/
theorem State.segmentSent_sends {s : State} {z : Memory} {j : Nat} {head addresses before after : List Byte}
    (hlen : 54 + j ≤ 65535) (hzero : z.Zeroed s.cfg TCP_CSUM) (hhead : z.slice 0 34 = head) (haddresses : z.slice 26 8 = addresses)
    (hbefore : z.slice 34 16 = before) (hafter : z.slice 52 (2 + j) = after)
    (hpast : ∀ n, z.slice (54 + j) n = s.buf.slice (54 + j) n) :
    Sends s (s.segmentSent z j) (head ++ Claims.segment s.cfg .tcp addresses before after) := by
  obtain ⟨-, hzero⟩ := hzero
  have hsegment := z.slice_storeCksum (off := 26) (p := 8) (k := 16) (2 + j) s.cfg .tcp hzero
  have hrange : 8 + (16 + 2 + (2 + j)) = 28 + j := by omega
  have hsplit : 54 + j = 34 + (16 + 2 + (2 + j)) := by omega
  rw [hrange] at hsegment
  refine State.transcoded_sends _ ?_ (u16_toNat hlen) ?_ fun n => ?_
  · rw [← hhead, ← hbefore, ← hafter, List.length_append, length_segment]
    simp only [Memory.length_slice]
    omega
  · rw [hsplit, Memory.slice_append, Memory.slice_storeCksum_apart _ _ _ _ _ (.inl (by decide)), hhead]
    refine (congrArg (head ++ ·) hsegment).trans ?_
    rw [haddresses, hbefore, hafter]
  · rw [Memory.slice_storeCksum_apart _ _ _ _ _ (.inr (by omega)), hpast]

/-! ### TCP.SYNACK -/

/-- The writes of `TCP.SYNACK` up to its checksum (R220). -/
theorem synackZeroed_eq (s : State) : synackZeroed s.cfg s.mac s.ip s.port s.seq s.buf =
    tcpHead s.cfg s.port s.seq 1#16 true true
      ((ipReply s.cfg s.ip ((ethReply s.mac s.buf).wr16 16 44#16)).wr 47 0x12#8) := rfl

/-- `TCP.SYNACK` reads the request's segment as it stands: what comes before `TcpHead` writes its flags only (R220). -/
theorem slice_before_synackHead {s : State} {b n : Nat} (h : 34 ≤ b ∧ b + n ≤ 47 ∨ 48 ≤ b) :
    ((ipReply s.cfg s.ip ((ethReply s.mac s.buf).wr16 16 44#16)).wr 47 0x12#8).slice b n = s.buf.slice b n := by
  simp (disch := omega) only [Memory.slice_wr_apart, slice_ipReply_apart, Memory.slice_wr16_apart, slice_ethReply_apart]

theorem slice_synackZeroed_header (s : State) : (synackZeroed s.cfg s.mac s.ip s.port s.seq s.buf).slice 34 16 =
    [0x00#8, s.port] ++ s.buf.slice 34 2 ++ [0x00#8, 0x00#8, s.seq, 0x00#8] ++ bytes32 (s.buf.rd32 38 + 1#32) ++
      [0x60#8, 0x12#8] ++ s.buf.slice 48 2 := by
  have hpeer := Memory.rd32_congr (slice_before_synackHead (s := s) (b := 38) (n := 4) (by omega))
  rw [synackZeroed_eq, Memory.slice_append _ 34 14 2, Memory.slice_append _ 34 12 2, Memory.slice_append _ 46 1 1]
  simp (disch := omega) only [Nat.reduceAdd, slice_tcpHead, slice_tcpHead_length, slice_tcpHead_apart, Memory.slice_wr,
    slice_before_synackHead, hpeer, if_true]
  rfl

theorem slice_synackZeroed_tail (s : State) : (synackZeroed s.cfg s.mac s.ip s.port s.seq s.buf).slice 52 (2 + 4) =
    s.buf.slice 52 2 ++ [0x02#8, 0x04#8, hi s.cfg.mss, lo s.cfg.mss] := by
  rw [synackZeroed_eq, Memory.slice_append, slice_tcpHead_apart _ _ _ _ _ _ _ (by omega), slice_before_synackHead (by omega)]
  exact congrArg (s.buf.slice 52 2 ++ ·) (slice_tcpHead_option _ _ _ _ _ true true)

theorem synack_sends (s : State) :
    Sends s (State.segmentSent { s with seq := s.seq + s.cfg.seqStep } (synackZeroed s.cfg s.mac s.ip s.port s.seq s.buf) 4)
      (synackFrame s) := by
  refine State.segmentSent_sends (s := { s with seq := s.seq + s.cfg.seqStep }) (by decide) (synackZeroed_zeroed _ _ _ _ _ _)
    ?_ ?_ (slice_synackZeroed_header s) (slice_synackZeroed_tail s) fun n => ?_
  · rw [synackZeroed_eq, slice_tcpHead_apart _ _ _ _ _ _ _ (by omega), Memory.slice_wr_apart _ _ (by omega),
      slice_ipReply_wr16_head _ fun _ _ _ => rfl]
  · rw [synackZeroed_eq, slice_tcpHead_apart _ _ _ _ _ _ _ (by omega), Memory.slice_wr_apart _ _ (by omega),
      slice_ipReply_wr16_addresses _ fun _ _ _ => rfl]
  · rw [synackZeroed_eq, slice_tcpHead_apart _ _ _ _ _ _ _ (.inr (.inr (.inr (by decide)))), slice_before_synackHead (by omega)]

/-! ### TCP.ACK -/

/-- A signed scalar that is not negative, widened (R23). -/
theorem ofInt_toInt_of_nonneg {v : U16} (h : 0 ≤ v.toInt) : BitVec.ofInt 32 v.toInt = v.setWidth 32 :=
  BitVec.signExtend_eq_setWidth_of_msb_false (by rw [BitVec.msb_eq_toInt, decide_eq_false_iff_not]; omega)

/-- `max(1, DLEN)` in 32 bits (R23, R225). -/
theorem ackAdvance_setWidth (dlen : U16) : (ackAdvance dlen).setWidth 32 = BitVec.ofInt 32 (max 1 dlen.toInt) := by
  unfold ackAdvance
  split
  next h => rw [max_eq_left h]; rfl
  next h => rw [max_eq_right (by omega), ofInt_toInt_of_nonneg (by omega)]

section
variable (s : State)

/-- The writes of `TCP.ACK` up to its checksum (R225). -/
theorem ackZeroed_eq : ackZeroed s.cfg s.mac s.ip s.port s.dlen s.buf =
    ipReply s.cfg s.ip ((tcpHead s.cfg s.port 0#8 (ackAdvance s.dlen) false false ((ethReply s.mac s.buf).wr 47 0x10#8)).wr16 16
      40#16) := rfl

/-- `TCP.ACK` reads the peer's segment as it stands (R225). -/
theorem slice_before_ackHead {b n : Nat} (h : 34 ≤ b ∧ b + n ≤ 47 ∨ 48 ≤ b) :
    ((ethReply s.mac s.buf).wr 47 0x10#8).slice b n = s.buf.slice b n := by
  simp (disch := omega) only [Memory.slice_wr_apart, slice_ethReply_apart]

/-- `TcpHead` leaves the headers to `EthReply` and `IpReply` (R225). -/
theorem slice_ackHead_apart {b n : Nat} (h : b + n ≤ 34) :
    (tcpHead s.cfg s.port 0#8 (ackAdvance s.dlen) false false ((ethReply s.mac s.buf).wr 47 0x10#8)).slice b n =
      (ethReply s.mac s.buf).slice b n := by
  rw [slice_tcpHead_apart _ _ _ _ _ _ _ (.inl h), Memory.slice_wr_apart _ _ (by omega)]

theorem slice_ackZeroed_head : (ackZeroed s.cfg s.mac s.ip s.port s.dlen s.buf).slice 0 34 =
    replyEth s ++ ipHeader s.cfg (replyIpStart s 40#16) (replyAddresses s) := by
  rw [ackZeroed_eq, slice_ipReply_wr16_head _ fun _ _ => slice_ackHead_apart s]

theorem slice_ackZeroed_addresses : (ackZeroed s.cfg s.mac s.ip s.port s.dlen s.buf).slice 26 8 = replyAddresses s := by
  rw [ackZeroed_eq, slice_ipReply_wr16_addresses _ fun _ _ => slice_ackHead_apart s]

/-- The numbers of the acknowledgment (R225): ports, sequence number, acknowledgment number. -/
theorem slice_ackZeroed_numbers : (ackZeroed s.cfg s.mac s.ip s.port s.dlen s.buf).slice 34 12 =
    [0x00#8, s.port] ++ s.buf.slice 34 2 ++ s.buf.slice 42 4 ++
      bytes32 (s.buf.rd32 38 + BitVec.ofInt 32 (max 1 s.dlen.toInt)) := by
  have hpeer := Memory.rd32_congr (slice_before_ackHead s (b := 38) (n := 4) (by omega))
  rw [ackZeroed_eq, slice_ipReply_apart _ _ _ (by omega), Memory.slice_wr16_apart _ _ (by omega), slice_tcpHead, hpeer,
    slice_before_ackHead s (by omega), slice_before_ackHead s (by omega), ackAdvance_setWidth]
  rfl

theorem slice_ackZeroed_flags : (ackZeroed s.cfg s.mac s.ip s.port s.dlen s.buf).slice 47 1 = [0x10#8] := by
  simp (disch := omega) only [ackZeroed_eq, slice_ipReply_apart, Memory.slice_wr16_apart, slice_tcpHead_apart, Memory.slice_wr]

theorem slice_ackZeroed_header : (ackZeroed s.cfg s.mac s.ip s.port s.dlen s.buf).slice 34 16 =
    [0x00#8, s.port] ++ s.buf.slice 34 2 ++ s.buf.slice 42 4 ++
      bytes32 (s.buf.rd32 38 + BitVec.ofInt 32 (max 1 s.dlen.toInt)) ++ [0x50#8, 0x10#8] ++ s.buf.slice 48 2 := by
  rw [Memory.slice_append _ 34 14 2, Memory.slice_append _ 34 12 2, Memory.slice_append _ 46 1 1, slice_ackZeroed_numbers,
    slice_ackZeroed_flags]
  simp (disch := omega) only [Nat.reduceAdd, ackZeroed_eq, slice_ipReply_apart, Memory.slice_wr16_apart, slice_tcpHead_length,
    slice_tcpHead_apart, slice_before_ackHead]
  rfl

/-- `TCP.ACK` writes no option (R225): the urgent pointer and what follows the header are as before. -/
theorem slice_ackZeroed_past {b n : Nat} (h : 52 ≤ b ∧ b + n ≤ 54 ∨ 54 ≤ b) :
    (ackZeroed s.cfg s.mac s.ip s.port s.dlen s.buf).slice b n = s.buf.slice b n := by
  have hbare : optionBytes false = 0 := rfl
  simp (disch := omega) only [ackZeroed_eq, slice_ipReply_apart, Memory.slice_wr16_apart, slice_tcpHead_apart,
    slice_before_ackHead]

theorem ack_sends : Sends s (s.segmentSent (ackZeroed s.cfg s.mac s.ip s.port s.dlen s.buf) 0) (ackFrame s) :=
  State.segmentSent_sends (by decide) (ackZeroed_zeroed _ _ _ _ _ _) (slice_ackZeroed_head s) (slice_ackZeroed_addresses s)
    (slice_ackZeroed_header s) (slice_ackZeroed_past s (by omega)) fun _ => slice_ackZeroed_past s (by omega)

end

/-! ### TCP.ACKDATA -/

section
variable (m : Memory) (cfg : Config) (dlen : U16)

/-- The writes of `TCP.ACKDATA` up to its checksum (R230). -/
theorem ackdataZeroed_eq : ackdataZeroed cfg dlen m =
    (ipFinish cfg ((m.wr 47 0x19#8).wr16 16 (u16 (40 + dlen.toNat)))).wr16 50 0#16 := rfl

/-- `TCP.ACKDATA` keeps addresses, ports, numbers, window, urgent pointer and data (R230). -/
theorem slice_ackdataZeroed_apart {b n : Nat} (h : b + n ≤ 14 ∨ 26 ≤ b ∧ b + n ≤ 47 ∨ 48 ≤ b ∧ b + n ≤ 50 ∨ 52 ≤ b) :
    (ackdataZeroed cfg dlen m).slice b n = m.slice b n := by
  simp (disch := omega) only [ackdataZeroed_eq, Memory.slice_wr16_apart, slice_ipFinish_apart, Memory.slice_wr_apart]

theorem slice_ackdataZeroed_flags : (ackdataZeroed cfg dlen m).slice 47 1 = [0x19#8] := by
  simp (disch := omega) only [ackdataZeroed_eq, Memory.slice_wr16_apart, slice_ipFinish_apart, Memory.slice_wr]

theorem slice_ackdataZeroed_totlen : (ackdataZeroed cfg dlen m).slice 16 2 = bytes16 (u16 (40 + dlen.toNat)) := by
  simp (disch := omega) only [ackdataZeroed_eq, Memory.slice_wr16_apart, slice_ipFinish_start, Memory.slice_wr16]

end

theorem slice_ackdataZeroed_head (s : State) (dlen : U16) : (ackdataZeroed s.cfg dlen s.buf).slice 0 34 =
    s.buf.slice 0 14 ++ ipHeader s.cfg (replyIpStart s (u16 (40 + dlen.toNat))) (s.buf.slice 26 8) := by
  rw [Memory.slice_append _ 0 14 20, slice_ackdataZeroed_apart _ _ _ (by omega), ackdataZeroed_eq,
    Memory.slice_wr16_apart _ _ (by omega), slice_ipFinish, Memory.slice_append _ 14 4 2, Memory.slice_append _ 14 2 2]
  simp (disch := omega) only [Nat.reduceAdd, Memory.slice_wr16, Memory.slice_wr16_apart, Memory.slice_wr_apart]
  rfl

theorem slice_ackdataZeroed_header (s : State) (dlen : U16) : (ackdataZeroed s.cfg dlen s.buf).slice 34 16 =
    s.buf.slice 34 13 ++ [0x19#8] ++ s.buf.slice 48 2 := by
  rw [Memory.slice_append _ 34 14 2, Memory.slice_append _ 34 13 1, slice_ackdataZeroed_flags]
  simp (disch := omega) only [Nat.reduceAdd, slice_ackdataZeroed_apart]

theorem ackdata_sends {s : State} {dlen : U16} (h : 54 + dlen.toNat ≤ s.cap) :
    Sends s (s.segmentSent (ackdataZeroed s.cfg dlen s.buf) dlen.toNat) (ackdataFrame s dlen.toNat) := by
  refine State.segmentSent_sends (h.trans s.cap_le) (ackdataZeroed_zeroed _ _ _)
    (slice_ackdataZeroed_head s dlen)
    (slice_ackdataZeroed_apart _ _ _ (by omega)) (slice_ackdataZeroed_header s dlen) ?_ fun _ =>
      slice_ackdataZeroed_apart _ _ _ (by omega)
  rw [slice_ackdataZeroed_apart _ _ _ (by omega), Memory.slice_append]

/-! ### TCP.CLIENT -/

section
variable (m : Memory)

/-- The sequence number after the optional turn-round of the segment in `BUF` (R235). -/
theorem slice_clientTurn_seq (ackadv : U16) :
    (clientTurn ackadv m).slice 38 4 = if ackadv = 0#16 then m.slice 38 4 else m.slice 42 4 := by
  unfold clientTurn
  split
  · rfl
  · rw [Memory.slice_wr32, Memory.bytes32_rd32]

/-- The acknowledgment number after the optional turn-round of the segment in `BUF` (R235). -/
theorem slice_clientTurn_ack (ackadv : U16) : (clientTurn ackadv m).slice 42 4 =
    if ackadv = 0#16 then m.slice 42 4 else bytes32 (m.rd32 38 + ackadv.setWidth 32) := by
  unfold clientTurn
  split
  · rfl
  · rw [Memory.slice_wr32_apart _ _ (.inr le_rfl), Memory.slice_wr32]

theorem slice_clientTurn_apart {b n : Nat} (ackadv : U16) (h : b + n ≤ 38 ∨ 46 ≤ b) :
    (clientTurn ackadv m).slice b n = m.slice b n := by
  unfold clientTurn
  split
  · rfl
  · rw [Memory.slice_wr32_apart _ _ (by simp; omega), Memory.slice_wr32_apart _ _ (by simp; omega)]

/-- The fresh initial sequence number of an opening segment (R211, R235). -/
theorem slice_clientSeq (seq : Byte) (mss : Bool) :
    (clientSeq seq mss m).slice 38 4 = if mss then [0x00#8, 0x00#8, seq, 0x00#8] else m.slice 38 4 := by
  unfold clientSeq
  split
  · rw [Memory.slice_wr32, bytes32_initialSeq]
  · rfl

theorem slice_clientSeq_apart {b n : Nat} (seq : Byte) (mss : Bool) (h : b + n ≤ 38 ∨ 42 ≤ b) :
    (clientSeq seq mss m).slice b n = m.slice b n := by
  unfold clientSeq
  split
  · exact m.slice_wr32_apart _ h
  · rfl

section
variable (cfg : Config) (ip dip : Ip4) (ipid totlen : U16)

/-- The fields `TCP.CLIENT` writes before `IpFinish` (R235), each a step with a rule. -/
theorem clientIp_eq : clientIp cfg ip dip ipid totlen m =
    ipFinish cfg (((((((m.wrBytes 14 [0x45#8, 0x00#8]).wr16 16 totlen).wr16 18 ipid).wrBytes 20 [0x40#8, 0x00#8]).wrBytes 22
      [cfg.clientTtl, 6#8]).wrBytes 26 ip.bytes).wrBytes 30 dip.bytes) := rfl

theorem slice_clientIp_addresses : (clientIp cfg ip dip ipid totlen m).slice 26 8 = ip.bytes ++ dip.bytes := by
  rw [clientIp_eq, slice_ipFinish_apart _ _ (.inr le_rfl), Memory.slice_append _ 26 4 4]
  simp (disch := omega) only [Nat.reduceAdd, Memory.slice_wrIp, Memory.slice_wrIp_apart]

/-- The IPv4 header of `TCP.CLIENT` (R235). -/
theorem slice_clientIp : (clientIp cfg ip dip ipid totlen m).slice 14 20 =
    ipHeader cfg ([0x45#8, 0x00#8] ++ bytes16 totlen ++ bytes16 ipid ++ fragAndTtl cfg [0x40#8, 0x00#8, cfg.clientTtl] ++ [6#8])
      (ip.bytes ++ dip.bytes) := by
  have hpair : ∀ b : Memory, (b.wrBytes 22 [cfg.clientTtl, 6#8]).slice 22 1 = [cfg.clientTtl] ∧
      (b.wrBytes 22 [cfg.clientTtl, 6#8]).slice 23 1 = [6#8] := fun b => by
    simp [Memory.slice_succ, Memory.rd_wr]
  rw [clientIp_eq, slice_ipFinish, Memory.slice_append _ 14 4 2, Memory.slice_append _ 14 2 2, Memory.slice_append _ 20 2 1,
    Memory.slice_append _ 26 4 4]
  simp (disch := omega) only [Nat.reduceAdd, Memory.slice_wrIp, Memory.slice_wrIp_apart, Memory.slice_wrBytes_pair,
    Memory.slice_wrBytes_pair_apart, Memory.slice_wr16, Memory.slice_wr16_apart, hpair]
  rfl

theorem slice_clientIp_apart {b n : Nat} (h : b + n ≤ 14 ∨ 34 ≤ b) :
    (clientIp cfg ip dip ipid totlen m).slice b n = m.slice b n := by
  simp (disch := omega) only [clientIp_eq, slice_ipFinish_apart, Memory.slice_wrIp_apart, Memory.slice_wrBytes_pair_apart,
    Memory.slice_wr16_apart]

end

section
variable (cfg : Config) (flags : Byte) (clrack : Bool)

/-- The writes of `clientTail` (R235), each a step with a rule. -/
theorem clientTail_eq : clientTail cfg flags clrack m =
    (((((if clrack then m.wr32 42 0#32 else m).wr 47 flags).wr16 48 cfg.clientWindow).wr16 50 0#16).wr16 52 0#16) := rfl

theorem slice_clientTail_ack : (clientTail cfg flags clrack m).slice 42 4 =
    if clrack then [0x00#8, 0x00#8, 0x00#8, 0x00#8] else m.slice 42 4 := by
  simp (disch := omega) only [clientTail_eq, Memory.slice_wr16_apart, Memory.slice_wr_apart]
  split
  · exact Memory.slice_wr32 _ _ _
  · rfl

/-- Flags and window (R235). -/
theorem slice_clientTail : (clientTail cfg flags clrack m).slice 47 3 = [flags] ++ bytes16 cfg.clientWindow := by
  rw [Memory.slice_append _ 47 1 2]
  simp (disch := omega) only [Nat.reduceAdd, clientTail_eq, Memory.slice_wr16_apart, Memory.slice_wr16, Memory.slice_wr]

theorem slice_clientTail_urg : (clientTail cfg flags clrack m).slice 52 2 = [0x00#8, 0x00#8] := by
  rw [clientTail_eq, Memory.slice_wr16]
  rfl

theorem slice_clientTail_apart {b n : Nat} (h : b + n ≤ 42 ∨ 46 ≤ b ∧ b + n ≤ 47 ∨ 54 ≤ b) :
    (clientTail cfg flags clrack m).slice b n = m.slice b n := by
  simp (disch := omega) only [clientTail_eq, Memory.slice_wr16_apart, Memory.slice_wr_apart]
  split
  · exact m.slice_wr32_apart _ (by omega)
  · rfl

end

end

section
variable (s : State) (dmac : Mac) (dip : Ip4) (dport sport : U16) (flags : Byte) (mss clrack : Bool) (ackadv dlen : U16)

/-- The writes of `TCP.CLIENT` up to its checksum (R235). -/
theorem clientZeroed_eq : clientZeroed s dmac dip dport sport flags mss clrack ackadv dlen =
    clientTail s.cfg flags clrack (clientIp s.cfg s.ip dip s.ipid (u16 (40 + optionBytes mss + dlen.toNat))
      (tcpOption s.cfg mss (clientSeq s.seq mss (clientTurn ackadv
        ((((ethNew s.mac dmac s.buf).wr16 12 0x0800#16).wr16 34 sport).wr16 36 dport))))) := rfl

/-- `TCP.CLIENT` reads numbers and payload as they stand in the buffer (R235). -/
theorem slice_before_clientTurn {b n : Nat} (h : 38 ≤ b) :
    ((((ethNew s.mac dmac s.buf).wr16 12 0x0800#16).wr16 34 sport).wr16 36 dport).slice b n = s.buf.slice b n := by
  simp (disch := omega) only [Memory.slice_wr16_apart, slice_ethNew_apart]

theorem slice_clientZeroed_head : (clientZeroed s dmac dip dport sport flags mss clrack ackadv dlen).slice 0 34 =
    dmac.bytes ++ s.mac.bytes ++ [0x08#8, 0x00#8] ++
      ipHeader s.cfg
        ([0x45#8, 0x00#8] ++ bytes16 (u16 (40 + optionBytes mss + dlen.toNat)) ++ bytes16 s.ipid ++
          fragAndTtl s.cfg [0x40#8, 0x00#8, s.cfg.clientTtl] ++ [6#8])
        (s.ip.bytes ++ dip.bytes) := by
  rw [Memory.slice_append _ 0 14 20, Memory.slice_append _ 0 12 2]
  simp (disch := omega) only [Nat.reduceAdd, clientZeroed_eq, slice_clientTail_apart, slice_clientIp, slice_clientIp_apart,
    slice_tcpOption_apart, slice_clientSeq_apart, slice_clientTurn_apart, Memory.slice_wr16_apart, Memory.slice_wr16, slice_ethNew]
  rfl

theorem slice_clientZeroed_addresses : (clientZeroed s dmac dip dport sport flags mss clrack ackadv dlen).slice 26 8 =
    s.ip.bytes ++ dip.bytes := by
  rw [clientZeroed_eq, slice_clientTail_apart _ _ _ _ (by omega), slice_clientIp_addresses]

/-- The sequence number: fresh with `MSS`, else the peer's acknowledgment or what stands there (R235). -/
theorem slice_clientZeroed_seq : (clientZeroed s dmac dip dport sport flags mss clrack ackadv dlen).slice 38 4 =
    clientSeqField s mss ackadv := by
  simp (disch := omega) only [clientZeroed_eq, slice_clientTail_apart, slice_clientIp_apart, slice_tcpOption_apart,
    slice_clientSeq, slice_clientTurn_seq, slice_before_clientTurn]
  rfl

/-- The acknowledgment number: zero with `CLRACK`, else advanced over the peer's sequence number or what stands there (R235). -/
theorem slice_clientZeroed_ack : (clientZeroed s dmac dip dport sport flags mss clrack ackadv dlen).slice 42 4 =
    clientAckField s clrack ackadv := by
  have hpeer := Memory.rd32_congr (slice_before_clientTurn s dmac dport sport (b := 38) (n := 4) le_rfl)
  simp (disch := omega) only [clientZeroed_eq, slice_clientTail_ack, slice_clientIp_apart, slice_tcpOption_apart,
    slice_clientSeq_apart, slice_clientTurn_ack, slice_before_clientTurn, hpeer]
  rfl

theorem slice_clientZeroed_ports : (clientZeroed s dmac dip dport sport flags mss clrack ackadv dlen).slice 34 4 =
    bytes16 sport ++ bytes16 dport := by
  rw [Memory.slice_append _ 34 2 2]
  simp (disch := omega) only [Nat.reduceAdd, clientZeroed_eq, slice_clientTail_apart, slice_clientIp_apart,
    slice_tcpOption_apart, slice_clientSeq_apart, slice_clientTurn_apart, Memory.slice_wr16_apart, Memory.slice_wr16]

theorem slice_clientZeroed_header : (clientZeroed s dmac dip dport sport flags mss clrack ackadv dlen).slice 34 16 =
    bytes16 sport ++ bytes16 dport ++ clientSeqField s mss ackadv ++ clientAckField s clrack ackadv ++
      [if mss then 0x60#8 else 0x50#8, flags] ++ bytes16 s.cfg.clientWindow := by
  have hlength : (clientZeroed s dmac dip dport sport flags mss clrack ackadv dlen).slice 46 1 = [if mss then 0x60#8 else 0x50#8] := by
    rw [clientZeroed_eq, slice_clientTail_apart _ _ _ _ (by omega), slice_clientIp_apart _ _ _ _ _ _ (by omega), slice_tcpOption]
  have hflags : (clientZeroed s dmac dip dport sport flags mss clrack ackadv dlen).slice 47 3 =
      [flags] ++ bytes16 s.cfg.clientWindow := by rw [clientZeroed_eq, slice_clientTail]
  rw [Memory.slice_append _ 34 13 3, Memory.slice_append _ 34 12 1, Memory.slice_append _ 34 8 4, Memory.slice_append _ 34 4 4,
    slice_clientZeroed_ports, slice_clientZeroed_seq, slice_clientZeroed_ack, hlength, hflags]
  simp only [List.append_assoc, List.cons_append, List.nil_append]

/-- `TCP.CLIENT` leaves the payload and all that follows (R235). -/
theorem slice_clientZeroed_past {b n : Nat} (h : 54 + optionBytes mss ≤ b) :
    (clientZeroed s dmac dip dport sport flags mss clrack ackadv dlen).slice b n = s.buf.slice b n := by
  simp (disch := omega) only [clientZeroed_eq, slice_clientTail_apart, slice_clientIp_apart, slice_tcpOption_apart,
    slice_clientSeq_apart, slice_clientTurn_apart, slice_before_clientTurn]

/-- Urgent pointer, option and payload of a client segment (R235). -/
theorem slice_clientZeroed_tail :
    (clientZeroed s dmac dip dport sport flags mss clrack ackadv dlen).slice 52 (2 + (optionBytes mss + dlen.toNat)) =
      [0x00#8, 0x00#8] ++ (if mss then [0x02#8, 0x04#8, hi s.cfg.mss, lo s.cfg.mss] else []) ++
        s.buf.slice (54 + optionBytes mss) dlen.toNat := by
  have hurg : (clientZeroed s dmac dip dport sport flags mss clrack ackadv dlen).slice 52 2 = [0x00#8, 0x00#8] := by
    rw [clientZeroed_eq, slice_clientTail_urg]
  have hoption : (clientZeroed s dmac dip dport sport flags mss clrack ackadv dlen).slice 54 (optionBytes mss) =
      if mss then [0x02#8, 0x04#8, hi s.cfg.mss, lo s.cfg.mss] else [] := by
    rw [clientZeroed_eq, slice_clientTail_apart _ _ _ _ (by omega), slice_clientIp_apart _ _ _ _ _ _ (by omega),
      slice_tcpOption_option, mssOption]
  rw [Memory.slice_append, Memory.slice_append, hurg, hoption, slice_clientZeroed_past _ _ _ _ _ _ _ _ _ _ le_rfl,
    List.append_assoc]

/-- The client segment on the state whose counters have advanced (R22, R235). -/
theorem client_sends (seq : Byte) (ipid : U16) (h : 54 + optionBytes mss + dlen.toNat ≤ s.cap) :
    Sends s (State.segmentSent { s with ipid := ipid, seq := seq }
        (clientZeroed s dmac dip dport sport flags mss clrack ackadv dlen) (optionBytes mss + dlen.toNat))
      (clientFrame s dmac dip dport sport flags mss clrack ackadv dlen.toNat) :=
  State.segmentSent_sends (s := { s with ipid := ipid, seq := seq }) (by have := s.cap_le; omega)
    (clientZeroed_zeroed s _ _ _ _ _ _ _ _ _)
    (slice_clientZeroed_head s _ _ _ _ _ _ _ _ _) (slice_clientZeroed_addresses s _ _ _ _ _ _ _ _ _)
    (slice_clientZeroed_header s _ _ _ _ _ _ _ _ _) (slice_clientZeroed_tail s _ _ _ _ _ _ _ _ _)
    fun _ => slice_clientZeroed_past s _ _ _ _ _ _ _ _ _ (by omega)

end

/-! ### The transcoders as commands -/

section
variable {s : State}

theorem exec_tcpSynack (hs : Ready s) : exec .tcpSynack s = .next
    (State.segmentSent { s with seq := s.seq + s.cfg.seqStep } (synackZeroed s.cfg s.mac s.ip s.port s.seq s.buf) 4) :=
  exec_segmentSent hs rfl rfl

theorem exec_tcpAck (hs : Ready s) (hsesv : s.sesv = true) :
    exec .tcpAck s = .next (s.segmentSent (ackZeroed s.cfg s.mac s.ip s.port s.dlen s.buf) 0) := by
  rcases opTcpAck_cases s with ⟨-, hrun⟩ | ⟨hstale, -⟩
  · exact exec_segmentSent hs rfl hrun
  · exact absurd hsesv (by simp [hstale])

theorem exec_tcpAck_staleSession (hs : Ready s) (hsesv : s.sesv = false) : exec .tcpAck s = .next { s with fault := 6#8 } := by
  rcases opTcpAck_cases s with ⟨hvalid, -⟩ | ⟨-, hrun⟩
  · exact absurd hvalid (by simp [hsesv])
  · exact exec_of_opBody_raised (f := .staleSession) hs rfl hrun

theorem exec_tcpAckdata (hs : Ready s) {dlen : U16} (hcap : 54 + dlen.toNat ≤ s.cap) :
    exec (.tcpAckdata dlen) s = .next (s.segmentSent (ackdataZeroed s.cfg dlen s.buf) dlen.toNat) := by
  rcases opTcpAckdata_cases dlen s with ⟨hbeyond, -⟩ | ⟨-, hrun⟩
  · omega
  · exact exec_segmentSent hs rfl hrun

theorem exec_tcpAckdata_bufferBounds (hs : Ready s) {dlen : U16} (hcap : s.cap < 54 + dlen.toNat) :
    exec (.tcpAckdata dlen) s = .next { s with fault := 4#8 } := by
  rcases opTcpAckdata_cases dlen s with ⟨-, hrun⟩ | ⟨hinside, -⟩
  · exact exec_of_opBody_raised (f := .bufferBounds) hs rfl hrun
  · omega

section
variable (dmac : Mac) (dip : Ip4) (dport sport : U16) (flags : Byte) {mss : Bool} (clrack : Bool) (ackadv : U16) {dlen : U16}

/-- `ctl` as a number (R121). -/
theorem ctlByte_eq_add (mss clrack : Bool) : ctlByte mss clrack = (if mss then 1#8 else 0#8) + (if clrack then 2#8 else 0#8) := by
  cases mss <;> cases clrack <;> rfl

theorem encode_tcpClient (mss : Bool) (dlen : U16) :
    encode (.tcpClient dmac dip dport sport flags mss clrack ackadv dlen) =
      0x43#8 :: (dmac.bytes ++ dip.bytes ++ [hi dport, lo dport, hi sport, lo sport, flags] ++
        [(if mss then 1#8 else 0#8) + (if clrack then 2#8 else 0#8), hi ackadv, lo ackadv, hi dlen, lo dlen]) := by
  rw [← ctlByte_eq_add]
  rfl

theorem exec_tcpClient (hs : Ready s) (hcap : 54 + optionBytes mss + dlen.toNat ≤ s.cap) :
    exec (.tcpClient dmac dip dport sport flags mss clrack ackadv dlen) s = .next (State.segmentSent
      { s with ipid := s.ipid + 1#16, seq := if mss then s.seq + s.cfg.seqStep else s.seq }
      (clientZeroed s dmac dip dport sport flags mss clrack ackadv dlen) (optionBytes mss + dlen.toNat)) := by
  rcases opTcpClient_cases dmac dip dport sport flags mss clrack ackadv dlen s with ⟨hbeyond, -⟩ | ⟨-, hrun⟩
  · omega
  · rw [Nat.add_assoc 54, Nat.add_assoc 28] at hrun
    exact exec_segmentSent hs rfl hrun

theorem exec_tcpClient_bufferBounds (hs : Ready s) (hcap : s.cap < 54 + optionBytes mss + dlen.toNat) :
    exec (.tcpClient dmac dip dport sport flags mss clrack ackadv dlen) s = .next { s with fault := 4#8 } := by
  rcases opTcpClient_cases dmac dip dport sport flags mss clrack ackadv dlen s with ⟨-, hrun⟩ | ⟨hinside, -⟩
  · exact exec_of_opBody_raised (f := .bufferBounds) hs rfl hrun
  · omega

end

theorem exec_fill_bufferBounds (hs : Ready s) {pos : U16} {text : List Byte} (hcap : s.cap < 54 + pos.toNat + text.length) :
    exec (.fill pos text) s = .next { s with fault := 4#8 } := by
  rcases opFill_cases pos text s with ⟨-, hrun⟩ | ⟨hinside, -⟩
  · exact exec_of_opBody_raised (f := .bufferBounds) hs rfl hrun
  · omega

end

end Sys2Proof.Machine

namespace Sys2Proof.Proofs

open Sys2Proof.Machine Sys2Proof.Claims

/-- Settles O39: `TcpHead` reads the request's segment before it writes it, and the option ends at offset 58. -/
theorem synAckSendsHandshake : Obligations.SynAckSendsHandshake := fun s hs =>
  ⟨rfl, _, exec_tcpSynack hs, State.segmentSent_row _ _ _, synack_sends s⟩

/-- Settles O40: `IpReply` comes after `TcpHead` and touches no byte of it; without session scalars nothing is written. -/
theorem ackSendsAcknowledgment : Obligations.AckSendsAcknowledgment := fun s hs =>
  ⟨rfl, fun hsesv => ⟨_, exec_tcpAck hs hsesv, s.segmentSent_row _ _, ack_sends s⟩, exec_tcpAck_staleSession hs⟩

/-- Settles O41: only the flags, the total length and the two checksums are written. -/
theorem ackDataSendsResponse : Obligations.AckDataSendsResponse := fun _ s hs =>
  ⟨rfl, fun hcap => ⟨_, exec_tcpAckdata hs hcap, s.segmentSent_row _ _, ackdata_sends hcap⟩, exec_tcpAckdata_bufferBounds hs⟩

/-- Settles O42: the turn-round, the fresh sequence number and `CLRACK` meet in the two number fields, all else has its own
place. -/
theorem clientSendsSegment : Obligations.ClientSendsSegment := by
  intro dmac dip dport sport flags mss clrack ackadv dlen s hs
  refine ⟨encode_tcpClient dmac dip dport sport flags clrack ackadv mss dlen,
    fun hcap => ⟨_, exec_tcpClient dmac dip dport sport flags clrack ackadv hs hcap, ?_, ?_⟩,
    exec_tcpClient_bufferBounds dmac dip dport sport flags clrack ackadv hs⟩
  · rw [Nat.add_assoc 54]
    exact State.segmentSent_row _ _ _
  · exact client_sends s dmac dip dport sport flags mss clrack ackadv dlen _ _ hcap

/-- Settles O43: the text is written as one string at `54 + pos`. -/
theorem fillPlacesText : Obligations.FillPlacesText := by
  intro pos text s hs
  refine ⟨rfl, fun hcap => ⟨_, exec_fill_fits hs hcap, rfl, ?_, fun k hk => ?_, fun a ha => ?_⟩, exec_fill_bufferBounds hs⟩
  · exact u16_toNat (by have := s.cap_le; omega)
  · rw [List.getElem?_eq_getElem hk]
    exact congrArg some (Memory.rd_wrBytes_inside _ _ _ _ hk)
  · exact Memory.rd_wrBytes_outside _ _ _ _ ha

end Sys2Proof.Proofs
end

section
/-! PROOFS. The data exchange of the Dispatch Loop (R274, R276): the rules up to rule 8, and the two segments it sends. -/

namespace Sys2Proof.Machine

open Sys2Proof.Claims

/-! ### Up to rule 8 -/

/-- A flag test is the bit of the mask (R97, R274). -/
theorem State.tcpFlag_twoPow (s : State) (k : Nat) (h : k < 8) : s.tcpFlag (BitVec.twoPow 8 k) = (s.buf.rd 47).getLsbD k := by
  have hmask : BitVec.twoPow 8 k ≠ 0#8 := fun hzero => by
    have hbit := congrArg (BitVec.getLsbD · k) hzero
    simp [h] at hbit
  rw [State.tcpFlag, BitVec.and_twoPow]
  cases (s.buf.rd 47).getLsbD k with
  | false => rfl
  | true => exact bne_iff_ne.2 hmask

theorem State.tcpForMe_of_tcpSegment {r : State} (h : TcpSegment r) : r.tcpForMe = true := by
  obtain ⟨-, hproto, hhigh, hlow⟩ := h
  simp [State.tcpForMe, hproto, hhigh, hlow]

/-- A TCP segment for this node is no ARP request and no echo request (R271 to R273). -/
theorem dispatchFrame_of_tcpSegment {r : State} (h : TcpSegment r) : dispatchFrame r.rxlen r =
    if r.tcpFlag SYN then (opTcpSynack r).outcome 5#16
    else if r.tcpFlag ACK then dispatchAck r
    else .done 9#16 r := by
  have hforMe := State.tcpForMe_of_tcpSegment h
  obtain ⟨hip, hproto, -⟩ := h
  have harp : r.arpForMe r.rxlen.toNat = false := by
    rw [Bool.eq_false_iff, Ne, State.arpForMe_iff]
    exact fun harp => not_arpForMe_and_ip4ForMe r _ _ ⟨harp, hip⟩
  have hip := (r.ip4ForMe_iff _).2 hip
  simp [dispatchFrame, harp, hip, hproto, hforMe]

/-- An `ACK` without `SYN` goes to the session rules (R274). -/
theorem opDispatch_eq_dispatchAck {s r : State} (hr : r = s.linkReceive) (hn : r.rxlen ≠ 0#16) (h : TcpSegment r)
    (hsyn : ¬SynSet r) (hack : AckSet r) : opDispatch s = dispatchAck r := by
  subst hr
  have hsyn : s.linkReceive.tcpFlag SYN = false := (State.tcpFlag_twoPow _ 1 (by decide)).trans (Bool.eq_false_iff.2 hsyn)
  have hack : s.linkReceive.tcpFlag ACK = true := (State.tcpFlag_twoPow _ 4 (by decide)).trans hack
  rcases opDispatch_cases s with ⟨hempty, -⟩ | ⟨-, -, hrun⟩
  · exact absurd hempty hn
  · rw [hrun, dispatchFrame_of_tcpSegment h, hsyn, hack]
    rfl

/-- The payload offset of a segment is no wrapped number (R253). -/
theorem payloadOffset_toNat (m : Memory) : (34#16 + headerLength m).toNat = 34 + (headerLength m).toNat := by
  obtain ⟨-, hle⟩ := headerLength_legal m
  rw [BitVec.toNat_add]
  exact Nat.mod_eq_of_lt (by simp; omega)

/-- Rule 8 where request and response fit (R276). -/
theorem dispatchAck_exchange {r : State} {req resp : List Byte} (hdata : r.derived.dlen ≠ 0#16)
    (hreqcap : 34 + (headerLength r.buf).toNat + r.derived.dlen.toNat ≤ r.cap)
    (hreq : req = r.buf.slice (34 + (headerLength r.buf).toNat) r.derived.dlen.toNat) (hresp : resp = r.answer req)
    (hrespcap : 54 + resp.length ≤ r.cap) :
    dispatchAck r = .done 8#16 ((r.derived.filled req resp).acked.answered (u16 resp.length)) := by
  have hoffset : (34#16 + r.derived.hlen).toNat = 34 + (headerLength r.buf).toNat := payloadOffset_toNat r.buf
  have hslice : r.derived.buf.slice (34#16 + r.derived.hlen).toNat r.derived.dlen.toNat = req := by rw [hoffset, hreq]; rfl
  have hanswer : r.derived.answer req = resp := hresp.symm
  have hcap : r.derived.cap = r.cap := rfl
  rcases dispatchAck_cases r with ⟨hnone, -⟩ | ⟨hnone, -⟩ | ⟨-, -, hrun⟩
  · exact absurd hnone hdata
  · exact absurd hnone hdata
  · rw [hrun]
    rcases dispatchData_cases (34#16 + r.derived.hlen) r.derived rfl with ⟨hbeyond, -⟩ | ⟨-, hbeyond, -⟩ | ⟨-, -, hdone⟩
    · omega
    · rw [hslice, hanswer] at hbeyond
      omega
    · rw [hdone, hslice, hanswer]
      rfl

/-! ### The buffers of the two segments -/

section
variable (s : State)

/-- The buffer after the bare acknowledgment, apart from its checksum (R225). -/
theorem slice_acked_buf {b n : Nat} (h : b + n ≤ 50 ∨ 52 ≤ b) :
    s.acked.buf.slice b n = (ackZeroed s.cfg s.mac s.ip s.port s.dlen s.buf).slice b n :=
  Memory.slice_storeCksum_apart _ _ _ _ _ h

/-- The buffer after `TCP.ACKDATA`, apart from its checksum (R230). -/
theorem slice_answered_buf (dlen : U16) {b n : Nat} (h : b + n ≤ 50 ∨ 52 ≤ b) :
    (s.answered dlen).buf.slice b n = (ackdataZeroed s.cfg dlen s.buf).slice b n :=
  Memory.slice_storeCksum_apart _ _ _ _ _ h

theorem slice_ackZeroed_totlen : (ackZeroed s.cfg s.mac s.ip s.port s.dlen s.buf).slice 16 2 = bytes16 40#16 := by
  rw [ackZeroed_eq, ipReply, slice_ipFinish_start _ _ (by decide), slice_ipTurn_apart _ _ (by decide), Memory.slice_wr16]

/-- Ports and numbers, Ethernet header and data of the acknowledgment stand in the segment that follows it (R230). -/
theorem slice_answered_buf_apart (dlen : U16) {b n : Nat} (h : b + n ≤ 14 ∨ 34 ≤ b ∧ b + n ≤ 47 ∨ 54 ≤ b) :
    (s.answered dlen).buf.slice b n = s.buf.slice b n := by
  rw [slice_answered_buf s dlen (by omega), slice_ackdataZeroed_apart _ _ _ (by omega)]

end

/-- A segment's data advances the acknowledgment by exactly its length (R23, R225). -/
theorem ofInt_max_one_of_data {dlen : U16} (hdata : dlen ≠ 0#16) (hle : dlen.toNat ≤ 32767) :
    BitVec.ofInt 32 (max 1 dlen.toInt) = dlen.setWidth 32 := by
  have hpos : 0 < dlen.toNat := Nat.pos_of_ne_zero fun h => hdata (BitVec.eq_of_toNat_eq h)
  have hint : dlen.toInt = dlen.toNat := BitVec.toInt_eq_toNat_of_lt (by omega)
  rw [max_eq_right (by omega), ofInt_toInt_of_nonneg (by omega)]

/-- The bare acknowledgment's total length, flags and acknowledgment number (R225). -/
theorem State.acked_frame (s : State) :
    ((s.acked.buf.slice 0 54).drop 16).take 2 = bytes16 40#16 ∧ (s.acked.buf.slice 0 54)[47]? = some 0x10#8 ∧
      ((s.acked.buf.slice 0 54).drop 42).take 4 = bytes32 (s.buf.rd32 38 + BitVec.ofInt 32 (max 1 s.dlen.toInt)) := by
  have hnumbers := congrArg (List.drop 8) (slice_ackZeroed_numbers s)
  refine ⟨?_, Memory.getElem?_slice_of_slice_one _ ((slice_acked_buf s (by decide)).trans (slice_ackZeroed_flags s)) (by decide), ?_⟩
  · rw [Memory.take_drop_slice _ (by decide), slice_acked_buf s (by decide), slice_ackZeroed_totlen]
  · rw [Memory.take_drop_slice _ (by decide), slice_acked_buf s (by decide)]
    rw [Memory.drop_slice] at hnumbers
    exact hnumbers

/-- The ACK+PUSH+FIN's total length and flags, and what it takes from the buffer: data, ports and numbers, Ethernet header
(R230). -/
theorem State.answered_frame (s : State) {dlen : U16} {n : Nat} (hn : dlen.toNat = n) :
    (((s.answered dlen).buf.slice 0 (54 + n)).drop 16).take 2 = bytes16 (u16 (40 + n)) ∧
      ((s.answered dlen).buf.slice 0 (54 + n))[47]? = some 0x19#8 ∧
      ((s.answered dlen).buf.slice 0 (54 + n)).drop 54 = s.buf.slice 54 n ∧
      (((s.answered dlen).buf.slice 0 (54 + n)).drop 34).take 12 = s.buf.slice 34 12 ∧
      ((s.answered dlen).buf.slice 0 (54 + n)).take 14 = s.buf.slice 0 14 := by
  subst hn
  refine ⟨?_, Memory.getElem?_slice_of_slice_one _
    ((slice_answered_buf s dlen (by decide)).trans (slice_ackdataZeroed_flags _ _ _)) (by omega), ?_, ?_, ?_⟩
  · rw [Memory.take_drop_slice _ (by omega), slice_answered_buf s dlen (by decide), slice_ackdataZeroed_totlen]
  · rw [Memory.drop_slice, Nat.add_sub_cancel_left, slice_answered_buf_apart s dlen (by omega)]
  · rw [Memory.take_drop_slice _ (by omega), slice_answered_buf_apart s dlen (by omega)]
  · rw [Memory.take_slice _ _ (by omega), slice_answered_buf_apart s dlen (by omega)]

/-- The acknowledgment leaves the response `FILL` placed (R225, R276). -/
theorem slice_acked_filled (s : State) (req resp : List Byte) : (s.filled req resp).acked.buf.slice 54 resp.length = resp := by
  rw [slice_acked_buf _ (by omega), slice_ackZeroed_past _ (by omega)]
  exact Memory.slice_wrBytes _ _ _

/-- The response is placed past the peer's numbers (R240, R276). -/
theorem rd32_filled (s : State) (req resp : List Byte) : (s.filled req resp).buf.rd32 38 = s.buf.rd32 38 :=
  Memory.rd32_congr (Memory.slice_wrBytes_apart _ (.inl (by decide)))

/-- Two segments are sent one after the other (R84, R276). -/
theorem State.answered_acked_txlog (s : State) (dlen : U16) : (s.acked.answered dlen).txlog =
    s.txlog ++ [s.acked.buf.slice 0 54, (s.acked.answered dlen).buf.slice 0 (54 + dlen.toNat)] := by
  rw [List.append_cons s.txlog]
  rfl

end Sys2Proof.Machine

namespace Sys2Proof.Proofs

open Sys2Proof.Machine Sys2Proof.Claims

/-- Settles O53: both segments are ranges of one buffer, in which `TCP.ACKDATA` finds the numbers `TCP.ACK` left and the response
`FILL` placed. -/
theorem dataSegmentYieldsTwoFrames : Obligations.DataSegmentYieldsTwoFrames := by
  intro s r req resp hs hr hn hsegment hsyn hack hdata hreqcap hreq hresp hrespcap
  have hscap := s.cap_le
  have hrcap : r.cap = s.cap := by rw [hr, State.linkReceive_cap]
  have hanswer : resp = r.answer req := by rw [hresp, hr]; rfl
  have hlen : (u16 resp.length).toNat = resp.length := u16_toNat (by omega)
  have hrun : opBody .dispatch s = _ := (opDispatch_eq_dispatchAck hr hn hsegment hsyn hack).trans
    (dispatchAck_exchange hdata (hrcap ▸ hreqcap) hreq hanswer (hrcap ▸ hrespcap))
  have hlog := (r.derived.filled req resp).answered_acked_txlog (u16 resp.length)
  rw [hlen] at hlog
  obtain ⟨hfTotlen, hfFlags, hfAck⟩ := (r.derived.filled req resp).acked_frame
  obtain ⟨hgTotlen, hgFlags, hgData, hgNumbers, hgEth⟩ := (r.derived.filled req resp).acked.answered_frame hlen
  have hadvance : BitVec.ofInt 32 (max 1 (r.derived.filled req resp).dlen.toInt) = _ :=
    ofInt_max_one_of_data hdata (dataLength_legal _ _)
  rw [rd32_filled, hadvance] at hfAck
  refine ⟨_, (r.derived.filled req resp).acked.buf.slice 0 54,
    ((r.derived.filled req resp).acked.answered (u16 resp.length)).buf.slice 0 (54 + resp.length),
    exec_of_opBody_done hs rfl hrun, rfl, ?_, ?_, hlog.trans ?_, Memory.length_slice _ _ _, hfTotlen, hfFlags, hfAck,
    Memory.length_slice _ _ _, hgTotlen, hgFlags, ?_, ?_, ?_⟩
  · subst hr
    exact hs.1
  · subst hr
    rfl
  · subst hr
    rfl
  · rw [hgData, slice_acked_filled]
  · rw [hgNumbers, Memory.take_drop_slice _ (by decide)]
  · rw [hgEth, Memory.take_slice _ _ (by decide)]

end Sys2Proof.Proofs
end

section
/-! PROOFS. The Session Helper (44_session.md): the header length and the data length as numbers, the closed form of the data
length as 16-bit arithmetic, and the two commands. -/

namespace Sys2Proof.Machine

open Sys2Proof.Claims

/-! ### The two scalars (R251, R252) -/

/-- `T`, the data length before the clamp, over the integers (R251). -/
def rawDataLength (totlen hlen : U16) : Int := (totlen.toNat : Int) - 20 - (hlen.toNat : Int)

theorem dataLength_eq_ite (totlen hlen : U16) : dataLength totlen hlen =
    if 1 ≤ rawDataLength totlen hlen ∧ rawDataLength totlen hlen ≤ 32767 then BitVec.ofInt 16 (rawDataLength totlen hlen)
    else 0#16 := rfl

theorem dataLength_toInt (totlen hlen : U16) : (dataLength totlen hlen).toInt =
    if 1 ≤ rawDataLength totlen hlen ∧ rawDataLength totlen hlen ≤ 32767 then rawDataLength totlen hlen else 0 := by
  rw [dataLength_eq_ite]
  split
  next h => exact BitVec.toInt_ofInt_eq_self (by decide) (by omega) (by omega)
  next => rfl

/-- The 16-bit subtraction of R252 is `T` modulo `2^16`. -/
theorem sub_eq_ofInt_rawDataLength (totlen hlen : U16) :
    totlen - 20#16 - hlen = BitVec.ofInt 16 (rawDataLength totlen hlen) := by
  apply BitVec.eq_of_toNat_eq
  simp only [BitVec.toNat_sub, BitVec.toNat_ofNat, BitVec.toNat_ofInt, rawDataLength]
  omega

/-- Read as a signed number, `T` modulo `2^16` is positive in the range of R251 only: `T` is from -80 to 65515 (R252). -/
theorem toInt_ofInt_rawDataLength_pos_iff {totlen hlen : U16} (hlen_le : hlen.toNat ≤ 60) :
    0 < (BitVec.ofInt 16 (rawDataLength totlen hlen)).toInt ↔
      1 ≤ rawDataLength totlen hlen ∧ rawDataLength totlen hlen ≤ 32767 := by
  have hlow : -80 ≤ rawDataLength totlen hlen := by unfold rawDataLength; omega
  have hhigh : rawDataLength totlen hlen ≤ 65515 := by unfold rawDataLength; omega
  rw [BitVec.toInt_ofInt, Int.bmod_def]
  omega

/-- `HLEN` is four times the upper nibble of `BUF[46]` (R251). -/
theorem headerLength_toNat (m : Memory) : (headerLength m).toNat = 4 * ((m.rd TCP_HLEN).toNat / 16) := by
  simp only [headerLength, BitVec.toNat_mul, BitVec.toNat_setWidth, BitVec.extractLsb'_toNat, BitVec.toNat_ofNat,
    Nat.shiftRight_eq_div_pow]
  omega

/-- `34 + HLEN` is no wrapped number for the values of R23 (R253). -/
theorem payloadOffset_toNat_of_le {hlen : U16} (h : hlen.toNat ≤ 60) : (34#16 + hlen).toNat = 34 + hlen.toNat := by
  bv_omega

/-! ### The Session Helper as commands -/

section
variable {s : State}

theorem exec_sesDerive (hs : Ready s) :
    exec .sesDerive s = .next { s.derived with res := deriveRes s.cfg.deriveResult s.derived.dlen } :=
  exec_of_opBody_done hs rfl (opSesDerive_eq s)

theorem exec_sesPoff (hs : Ready s) (hsesv : s.sesv = true) :
    exec .sesPoff s = .next { s with res := if s.dlen = 0#16 then 0#16 else 34#16 + s.hlen } := by
  rcases opSesPoff_cases s with ⟨-, hrun⟩ | ⟨hstale, -⟩
  · exact exec_of_opBody_done hs rfl hrun
  · exact absurd hsesv (by simp [hstale])

theorem exec_sesPoff_staleSession (hs : Ready s) (hsesv : s.sesv = false) :
    exec .sesPoff s = .next { s with fault := 6#8 } := by
  rcases opSesPoff_cases s with ⟨hvalid, -⟩ | ⟨-, hrun⟩
  · exact absurd hvalid (by simp [hsesv])
  · exact exec_of_opBody_raised (f := .staleSession) hs rfl hrun

end

end Sys2Proof.Machine

namespace Sys2Proof.Proofs

open Sys2Proof.Machine Sys2Proof.Claims

/-- Settles O46: the state left is `s.derived` with the instance's `RES`; its two scalars are the numbers of R251. -/
theorem sesDeriveComputes : Obligations.SesDeriveComputes := by
  intro s hs
  refine ⟨rfl, _, exec_sesDerive hs, rfl, fun hcfg => ?_, fun hcfg => ?_, headerLength_toNat s.buf, ?_⟩
  · simp only [hcfg, deriveRes_dataLength]
  · simp only [hcfg, deriveRes_bytesSent]
  · have hdlen := dataLength_toInt (s.buf.rd16 IP_TOTLEN) (headerLength s.buf)
    rw [rawDataLength, Memory.rd16, be16_toNat] at hdlen
    exact hdlen

/-- Settles O47: the 16-bit subtraction is `T` modulo `2^16`, and the sign of that number tells the range of R251 apart. -/
theorem dataLengthIsSignedClamp : Obligations.DataLengthIsSignedClamp := by
  intro totlen hlen hle
  simp only [dataLength_eq_ite, sub_eq_ofInt_rawDataLength, toInt_ofInt_rawDataLength_pos_iff hle]

/-- Settles O48: `SES.POFF` reads the session scalars only where they are valid; `34 + HLEN` does not wrap. -/
theorem sesPoffAnswers : Obligations.SesPoffAnswers := by
  intro s hs
  refine ⟨rfl, exec_sesPoff hs, fun ⟨hmod, hle, _⟩ => ?_, exec_sesPoff_staleSession hs⟩
  have hoffset := payloadOffset_toNat_of_le hle
  omega

end Sys2Proof.Proofs
end

section
/-! PROOFS. The Dispatch Loop and its two neighbours (45_dispatch.md): `INIT`, `RECV`, the rules of `DISPATCH` one by one, its
outcome codes and the number of frames it sends. -/

namespace Sys2Proof.Machine

open Sys2Proof.Claims

/-! ### INIT and RECV (R261, R265) -/

theorem exec_init {s : State} (hclear : s.fault = 0#8) (hinited : s.inited = false) (mac : Mac) (ip : Ip4) (port : Byte) :
    exec (.init mac ip port) s = .next { s with mac := mac, ip := ip, port := port, inited := true, res := 0#16 } := by
  rcases execInit_cases mac ip port s with ⟨hfault, -⟩ | ⟨-, htwice, -⟩ | ⟨-, -, hrun⟩
  · exact absurd hclear hfault
  · exact absurd htwice (by simp [hinited])
  · exact hrun

theorem exec_init_alreadyInitialised {s : State} (hclear : s.fault = 0#8) (hinited : s.inited = true) (mac : Mac) (ip : Ip4)
    (port : Byte) : exec (.init mac ip port) s = .next { s with fault := 3#8 } := by
  rcases execInit_cases mac ip port s with ⟨hfault, -⟩ | ⟨-, -, hrun⟩ | ⟨-, hfirst, -⟩
  · exact absurd hclear hfault
  · rw [raise_of_clear _ hclear] at hrun
    exact hrun
  · exact absurd hinited (by simp [hfirst])

/-- The device delivers the next frame of the stream whole where it fits (R305). -/
theorem State.arriving_of_rx {s : State} {f : List Byte} {rest : List (List Byte)} (hrx : s.rx = f :: rest)
    (hfits : f.length ≤ s.cap) : s.arriving = f := by
  rw [State.arriving, hrx]
  exact deliverable_of_le hfits

/-- A receive replaces the bytes from offset 0 on, as many as the frame has (R265). -/
theorem State.linkReceive_rd_getD (s : State) (a : Nat) : s.linkReceive.buf.rd a = (s.arriving[a]?).getD (s.buf.rd a) := by
  rw [State.linkReceive_rd]
  split
  next h => rw [List.getElem?_eq_getElem h, Option.getD_some]
  next h => rw [List.getElem?_eq_none (Nat.le_of_not_lt h), Option.getD_none]

theorem exec_recv {s : State} (hs : Ready s) : exec .recv s = .next { s.linkReceive with res := s.linkReceive.rxlen } :=
  exec_of_opBody_done hs rfl rfl

/-! ### The decision tree in the words of the rules (R271 to R274) -/

section
variable {r : State}

theorem State.arpRequestForMe_iff (r : State) : r.arpRequestForMe = true ↔ ArpRequest r := by
  rw [State.arpRequestForMe, Bool.and_eq_true, State.arpForMe_iff, beq_iff_eq, Memory.slice_two_eq_iff]

theorem State.echoRequest_iff (hip : Ip4ForMe r r.rxlen.toNat) : r.echoRequest = true ↔ EchoRequest r := by
  rw [State.echoRequest, Bool.and_eq_true, beq_iff_eq, beq_iff_eq, EchoRequest, and_iff_right hip]

theorem State.tcpForMe_iff (hip : Ip4ForMe r r.rxlen.toNat) : r.tcpForMe = true ↔ TcpSegment r := by
  simp only [State.tcpForMe, Bool.and_eq_true, beq_iff_eq, and_assoc, TcpSegment, and_iff_right hip]

theorem State.tcpFlag_fin_iff (r : State) : r.tcpFlag FIN = true ↔ FinSet r :=
  Bool.eq_iff_iff.1 (r.tcpFlag_twoPow 0 (by decide))

theorem State.tcpFlag_syn_iff (r : State) : r.tcpFlag SYN = true ↔ SynSet r :=
  Bool.eq_iff_iff.1 (r.tcpFlag_twoPow 1 (by decide))

theorem State.tcpFlag_ack_iff (r : State) : r.tcpFlag ACK = true ↔ AckSet r :=
  Bool.eq_iff_iff.1 (r.tcpFlag_twoPow 4 (by decide))

/-- No frame is an ARP request and an IPv4 packet at once (R164). -/
theorem not_ip4ForMe_of_arpRequest (harp : ArpRequest r) : ¬Ip4ForMe r r.rxlen.toNat := fun hip => by
  obtain ⟨harp, -⟩ := harp
  exact not_arpForMe_and_ip4ForMe r _ _ ⟨harp, hip⟩

/-- Rules 2 and 3 (R271). -/
theorem dispatchFrame_of_not_ip4ForMe (h : ¬Ip4ForMe r r.rxlen.toNat) :
    dispatchFrame r.rxlen r = if ArpRequest r then (opArpReply r).outcome 2#16 else .done 3#16 r := by
  have hip : r.ip4ForMe r.rxlen.toNat = false := Bool.eq_false_iff.2 (mt (r.ip4ForMe_iff _).1 h)
  rw [dispatchFrame, ← State.arpRequestForMe, hip]
  simp only [State.arpRequestForMe_iff, Bool.not_false, if_true]

/-- Rules 4 to 9 (R272 to R274). -/
theorem dispatchFrame_of_ip4ForMe (h : Ip4ForMe r r.rxlen.toNat) : dispatchFrame r.rxlen r =
    if EchoRequest r then (opIcmpReply r.rxlen r).outcome 4#16
    else if TcpSegment r then
      if SynSet r then (opTcpSynack r).outcome 5#16
      else if AckSet r then dispatchAck r
      else .done 9#16 r
    else .done 9#16 r := by
  have harp : r.arpRequestForMe = false :=
    Bool.eq_false_iff.2 fun harp => not_ip4ForMe_of_arpRequest (r.arpRequestForMe_iff.1 harp) h
  rw [dispatchFrame, ← State.arpRequestForMe, ← State.echoRequest, harp, (r.ip4ForMe_iff _).2 h]
  simp only [State.echoRequest_iff h, State.tcpForMe_iff h, State.tcpFlag_syn_iff, State.tcpFlag_ack_iff, Bool.not_true,
    Bool.false_eq_true, if_false]

end

/-! ### DISPATCH as a command, rule by rule (R270) -/

/-- A command that passes its checks and whose body stops records the fault on what the body wrote before it (R126, R292). -/
theorem exec_of_opBody_stopped {i : Instr} {s u : State} {f : Fault} (hs : Ready s) (hi : isInit i = false)
    (hrun : opBody i s = .raised f u) : exec i s = .next { u with fault := f.code } := by
  have hkept := opBody_fault i s
  rw [hrun] at hkept
  obtain ⟨hclear, hinited⟩ := hs
  rw [exec_eq_command hi, command_ready _ hclear hinited, hrun, Run.finish_raised, raise_of_clear f (Eq.trans hkept hclear)]

section
variable {s r : State}

theorem ready_linkReceive (hs : Ready s) (hr : r = s.linkReceive) : Ready r := by
  subst hr
  exact hs

theorem opDispatch_of_empty (hr : r = s.linkReceive) (hempty : r.rxlen = 0#16) : opDispatch s = .done 1#16 r := by
  subst hr
  exact if_pos hempty

theorem opDispatch_of_frame (hr : r = s.linkReceive) (hn : r.rxlen ≠ 0#16) : opDispatch s = dispatchFrame r.rxlen r := by
  subst hr
  exact if_neg hn

theorem rxlen_le_cap (hr : r = s.linkReceive) : r.rxlen.toNat ≤ r.cap := by
  subst hr
  exact Nat.le_trans (Nat.le_of_eq s.linkReceive_rxlen_toNat) s.arriving_length

/-- A rule that is one operation (R270): that operation run on the frame received, but for the value in `RES`. -/
theorem exec_dispatch_of_outcome {i : Instr} {u : State} {v code : U16} (hs : Ready s) (hr : r = s.linkReceive)
    (hi : isInit i = false) (hop : opBody i r = .done v u) (hrule : opDispatch s = (opBody i r).outcome code) :
    ∃ t, exec i r = .next t ∧ t.fault = 0#8 ∧ exec .dispatch s = .next { t with res := code } := by
  have hready := ready_linkReceive hs hr
  have hfault := opBody_fault i r
  rw [hop] at hrule hfault
  have hrun : opBody .dispatch s = .done code u := hrule
  exact ⟨_, exec_of_opBody_done hready hi hop, Eq.trans hfault hready.1, (exec_of_opBody_done hs rfl hrun).trans rfl⟩

end

/-! ### The rules after SES.DERIVE (R274, R276) -/

section
variable {r : State}

theorem dispatchAck_of_bare (hbare : r.derived.dlen = 0#16) :
    dispatchAck r = if FinSet r then .done 6#16 r.derived.acked else .done 7#16 r.derived := by
  simp only [← State.tcpFlag_fin_iff]
  rcases dispatchAck_cases r with ⟨-, hfin, hrun⟩ | ⟨-, hfin, hrun⟩ | ⟨hdata, -⟩
  · rw [hrun, if_pos hfin]
  · rw [hrun, if_neg (by simp [hfin])]
  · exact absurd hbare hdata

theorem dispatchAck_of_data (hdata : r.derived.dlen ≠ 0#16) :
    dispatchAck r = dispatchData (34#16 + r.derived.hlen) r.derived := by
  rcases dispatchAck_cases r with ⟨hbare, -⟩ | ⟨hbare, -⟩ | ⟨-, -, hrun⟩
  · exact absurd hbare hdata
  · exact absurd hbare hdata
  · exact hrun

/-- Rule 8 where the request ends beyond `CAP`: the handler is not called (R276, R294). -/
theorem dispatchAck_requestBeyond (hdata : r.derived.dlen ≠ 0#16)
    (hreqcap : r.cap < 34 + r.derived.hlen.toNat + r.derived.dlen.toNat) :
    dispatchAck r = .raised .bufferBounds r.derived := by
  have hoffset : (34#16 + r.derived.hlen).toNat = 34 + r.derived.hlen.toNat := payloadOffset_toNat r.buf
  have hcap : r.derived.cap = r.cap := rfl
  rw [dispatchAck_of_data hdata]
  exact if_pos (by omega)

/-- Rule 8 where the response does not fit: the handler was called and nothing was sent (R276, R294). -/
theorem dispatchAck_responseBeyond {req resp : List Byte} (hdata : r.derived.dlen ≠ 0#16)
    (hreqcap : 34 + r.derived.hlen.toNat + r.derived.dlen.toNat ≤ r.cap)
    (hreq : req = r.buf.slice (34 + r.derived.hlen.toNat) r.derived.dlen.toNat) (hresp : resp = r.answer req)
    (hrespcap : r.cap < 54 + resp.length) :
    dispatchAck r = .raised .bufferBounds (r.derived.logRequest req) := by
  have hoffset : (34#16 + r.derived.hlen).toNat = 34 + r.derived.hlen.toNat := payloadOffset_toNat r.buf
  have hslice : r.derived.buf.slice (34#16 + r.derived.hlen).toNat r.derived.dlen.toNat = req := by rw [hoffset, hreq]; rfl
  have hanswer : r.derived.answer req = resp := hresp.symm
  have hcap : r.derived.cap = r.cap := rfl
  rw [dispatchAck_of_data hdata]
  rcases dispatchData_cases (34#16 + r.derived.hlen) r.derived rfl with ⟨hbeyond, -⟩ | ⟨-, -, hrun⟩ | ⟨-, hfits, -⟩
  · omega
  · rw [hrun, hslice]
  · rw [hslice, hanswer] at hfits
    omega

end

section
variable {d : State}

theorem exec_fill_filled (hs : Ready d) (req : List Byte) {resp : List Byte} (hfits : 54 + resp.length ≤ d.cap) :
    exec (.fill 0#16 resp) { d with reqlog := d.reqlog ++ [req] } =
      .next { d.filled req resp with res := u16 (0 + resp.length) } :=
  exec_fill_fits (s := d.logRequest req) hs (pos := 0#16) hfits

theorem exec_tcpAck_acked (hs : Ready d) (hsesv : d.sesv = true) : exec .tcpAck d = .next { d.acked with res := 54#16 } :=
  exec_tcpAck hs hsesv

theorem exec_tcpAckdata_answered (hs : Ready d) {dlen : U16} (hfits : 54 + dlen.toNat ≤ d.cap) :
    exec (.tcpAckdata dlen) d = .next { d.answered dlen with res := u16 (54 + dlen.toNat) } :=
  exec_tcpAckdata hs hfits

/-- `FILL`, `TCP.ACK`, `TCP.ACKDATA` as three commands leave what rule 8 leaves, but for `RES` (R276). -/
theorem exec_exchange (hs : Ready d) (hsesv : d.sesv = true) (req : List Byte) {resp : List Byte}
    (hfits : 54 + resp.length ≤ d.cap) :
    ∃ f a v, exec (.fill 0#16 resp) { d with reqlog := d.reqlog ++ [req] } = .next f ∧ exec .tcpAck f = .next a ∧
      exec (.tcpAckdata (u16 resp.length)) a =
        .next { (d.filled req resp).acked.answered (u16 resp.length) with res := v } := by
  have hlen : (u16 resp.length).toNat = resp.length := u16_toNat (by have := d.cap_le; omega)
  have hack := exec_tcpAck_acked (d := { d.filled req resp with res := u16 (0 + resp.length) }) hs hsesv
  have hdata := exec_tcpAckdata_answered (d := { (d.filled req resp).acked with res := 54#16 }) hs (dlen := u16 resp.length)
    (by rw [hlen]; exact hfits)
  exact ⟨_, _, _, exec_fill_filled hs req hfits, hack, hdata⟩

end

/-! ### Outcome codes and frames sent (R275) -/

/-- From `s` to the end of a run of `DISPATCH`: an outcome code with the frames R275 gives for it, or `BufferBounds` with nothing
sent. -/
def State.OutcomeSends (s : State) : Run → Prop
  | .done code t => 1 ≤ code.toNat ∧ code.toNat ≤ 9 ∧
      ∃ new : List (List Byte), t.txlog = s.txlog ++ new ∧ new.length = framesFor code
  | .raised f t => f = .bufferBounds ∧ t.txlog = s.txlog

section
variable {s : State}

theorem State.outcomeSends_none {code : U16} {t : State} (hlow : 1 ≤ code.toNat) (hhigh : code.toNat ≤ 9)
    (hframes : framesFor code = 0) (ht : t.txlog = s.txlog) : s.OutcomeSends (.done code t) :=
  ⟨hlow, hhigh, [], by rw [ht, List.append_nil], hframes.symm⟩

theorem State.outcomeSends_one {code : U16} {u : State} {n : Nat} (hlow : 1 ≤ code.toNat) (hhigh : code.toNat ≤ 9)
    (hframes : framesFor code = 1) (hu : u.txlog = s.txlog) : s.OutcomeSends (.done code (u.send n)) :=
  ⟨hlow, hhigh, [u.buf.slice 0 n], by rw [State.send_txlog, hu], hframes.symm⟩

/-- Rules 6 to 8 (R274, R276). -/
theorem dispatchAck_outcomeSends (s : State) : s.OutcomeSends (dispatchAck s) := by
  rcases dispatchAck_cases s with ⟨-, -, hrun⟩ | ⟨-, -, hrun⟩ | ⟨-, -, hrun⟩
  · rw [hrun]
    exact State.outcomeSends_one (by decide) (by decide) (by decide) rfl
  · rw [hrun]
    exact State.outcomeSends_none (by decide) (by decide) (by decide) rfl
  · rcases dispatchData_cases (34#16 + s.derived.hlen) s.derived rfl with ⟨-, hdata⟩ | ⟨-, -, hdata⟩ | ⟨-, -, hdata⟩
    · rw [hrun, hdata]
      exact ⟨rfl, rfl⟩
    · rw [hrun, hdata]
      exact ⟨rfl, rfl⟩
    · rw [hrun, hdata]
      exact ⟨by decide, by decide, _, State.answered_acked_txlog _ _, rfl⟩

/-- Rules 2 to 9 on the frame received (R270). -/
theorem dispatchFrame_outcomeSends (hn : s.rxlen ≠ 0#16) (hc : s.rxlen.toNat ≤ s.cap) :
    s.OutcomeSends (dispatchFrame s.rxlen s) := by
  rcases dispatchFrame_cases s hn hc with ⟨-, hrun⟩ | ⟨-, -, hrun⟩ | ⟨-, -, -, hrun⟩ | ⟨-, -, -, -, -, hrun⟩ |
    ⟨-, -, -, -, -, -, hrun⟩ | ⟨-, -, -, -, hrun⟩
  · rw [hrun]
    exact State.outcomeSends_one (by decide) (by decide) (by decide) rfl
  · rw [hrun]
    exact State.outcomeSends_none (by decide) (by decide) (by decide) rfl
  · rw [hrun]
    exact State.outcomeSends_one (by decide) (by decide) (by decide) rfl
  · rw [hrun]
    exact State.outcomeSends_one (by decide) (by decide) (by decide) rfl
  · rw [hrun]
    exact dispatchAck_outcomeSends s
  · rw [hrun]
    exact State.outcomeSends_none (by decide) (by decide) (by decide) rfl

/-- `DISPATCH` (R270); the receive sends nothing. -/
theorem opDispatch_outcomeSends (s : State) : s.OutcomeSends (opDispatch s) := by
  rcases opDispatch_cases s with ⟨-, hrun⟩ | ⟨hn, hc, hrun⟩
  · rw [hrun]
    exact State.outcomeSends_none (by decide) (by decide) (by decide) rfl
  · rw [hrun]
    exact dispatchFrame_outcomeSends hn hc

end

end Sys2Proof.Machine

namespace Sys2Proof.Proofs

open Sys2Proof.Machine Sys2Proof.Claims

/-- Settles O24: the order of the checks, and the four registers the body writes. -/
theorem initWritesIdentity : Obligations.InitWritesIdentity := fun mac ip port _ hclear =>
  ⟨rfl, fun hinited => exec_init hclear hinited mac ip port,
    fun hinited => exec_init_alreadyInitialised hclear hinited mac ip port⟩

/-- Settles O25: a frame that fits is delivered whole, and its length is no wrapped number. -/
theorem recvTakesOneFrame : Obligations.RecvTakesOneFrame := by
  intro s f rest hs hrx hfits
  have harriving := State.arriving_of_rx hrx hfits
  have hrest : s.rx.tail = rest := by rw [hrx, List.tail_cons]
  refine ⟨rfl, _, exec_recv hs, ?_, fun a => ?_⟩
  · rw [← harriving, ← hrest]
    rfl
  · rw [← harriving]
    exact s.linkReceive_rd_getD a

/-- Settles O49: no operation runs on a dropped frame, so the state is the one after the receive. -/
theorem dispatchDrops : Obligations.DispatchDrops := by
  intro s r hs hr
  have dropped {code : U16} (hrun : opDispatch s = .done code r) : exec .dispatch s = .next { r with res := code } :=
    exec_of_opBody_done hs rfl hrun
  refine ⟨fun hempty => dropped (opDispatch_of_empty hr hempty), fun hn harp hip => dropped ?_,
    fun hn hip hecho htcp => dropped ?_⟩
  · rw [opDispatch_of_frame hr hn, dispatchFrame_of_not_ip4ForMe hip, if_neg harp]
  · rw [opDispatch_of_frame hr hn, dispatchFrame_of_ip4ForMe hip, if_neg hecho]
    by_cases hsegment : TcpSegment r
    · have hflags := not_or.1 fun hflag => htcp ⟨hsegment, hflag⟩
      obtain ⟨hsyn, hack⟩ := hflags
      rw [if_pos hsegment, if_neg hsyn, if_neg hack]
    · rw [if_neg hsegment]

/-- Settles O50: each rule hands the frame received to one operation, which completes. -/
theorem dispatchReplies : Obligations.DispatchReplies := by
  intro s r hs hr hn
  refine ⟨fun harp => ?_, fun hecho => ?_, fun hsegment hsyn => ?_⟩
  · have hrule : opDispatch s = (opBody .arpReply r).outcome 2#16 := by
      rw [opDispatch_of_frame hr hn, dispatchFrame_of_not_ip4ForMe (not_ip4ForMe_of_arpRequest harp), if_pos harp]
      rfl
    obtain ⟨u, hu, -, hdispatch⟩ := exec_dispatch_of_outcome hs hr rfl rfl hrule
    exact ⟨u, hu, hdispatch⟩
  · have hrule : opDispatch s = (opBody (.icmpReply r.rxlen) r).outcome 4#16 := by
      rw [opDispatch_of_frame hr hn, dispatchFrame_of_ip4ForMe hecho.1, if_pos hecho]
      rfl
    rcases opIcmpReply_cases r.rxlen r with ⟨hzero, -⟩ | ⟨-, hbeyond, -⟩ | ⟨-, -, hop⟩
    · exact absurd hzero hn
    · exact absurd (rxlen_le_cap hr) (Nat.not_le.2 hbeyond)
    · exact exec_dispatch_of_outcome hs hr rfl hop hrule
  · have hrule : opDispatch s = (opBody .tcpSynack r).outcome 5#16 := by
      rw [opDispatch_of_frame hr hn, dispatchFrame_of_tcpSegment hsegment, if_pos (r.tcpFlag_syn_iff.2 hsyn)]
      rfl
    obtain ⟨u, hu, -, hdispatch⟩ := exec_dispatch_of_outcome hs hr rfl rfl hrule
    exact ⟨u, hu, hdispatch⟩

/-- Settles O51: `TCP.ACK` finds the session scalars `SES.DERIVE` has just written. -/
theorem dispatchBareSegments : Obligations.DispatchBareSegments := by
  intro s r hs hr hn hsegment hsyn hack
  have hready := ready_linkReceive hs hr
  have hrule : opBody .dispatch s = dispatchAck r := opDispatch_eq_dispatchAck hr hn hsegment hsyn hack
  refine ⟨_, exec_sesDerive hready, fun hbare hfin => ⟨_, exec_tcpAck hready rfl, ?_⟩, fun hbare hfin => ?_⟩
  · rw [dispatchAck_of_bare hbare, if_pos hfin] at hrule
    exact (exec_of_opBody_done hs rfl hrule).trans rfl
  · rw [dispatchAck_of_bare hbare, if_neg hfin] at hrule
    exact (exec_of_opBody_done hs rfl hrule).trans rfl

/-- Settles O52: the two bounds of rule 8 in their order, then its three operations as commands. -/
theorem dispatchDataExchange : Obligations.DispatchDataExchange := by
  intro s r hs hr hn hsegment hsyn hack
  have hready := ready_linkReceive hs hr
  have hrule : opBody .dispatch s = dispatchAck r := opDispatch_eq_dispatchAck hr hn hsegment hsyn hack
  subst hr
  refine ⟨_, exec_sesDerive hready, fun hdata hreqcap => ?_, fun req resp hreq hresp =>
    ⟨fun hdata hreqcap hrespcap => ?_, fun hdata hreqcap hrespcap => ?_⟩⟩
  · exact exec_of_opBody_stopped hs rfl (hrule.trans (dispatchAck_requestBeyond hdata hreqcap))
  · exact exec_of_opBody_stopped hs rfl (hrule.trans (dispatchAck_responseBeyond hdata hreqcap hreq hresp hrespcap))
  · have hrun := hrule.trans (dispatchAck_exchange hdata hreqcap hreq hresp hrespcap)
    obtain ⟨f, a, v, hfill, hack, hdata⟩ := exec_exchange
      (d := { s.linkReceive.derived with res := deriveRes s.linkReceive.cfg.deriveResult s.linkReceive.derived.dlen })
      hready rfl req hrespcap
    exact ⟨f, a, _, hfill, hack, hdata, (exec_of_opBody_done hs rfl hrun).trans rfl⟩

/-- Settles O54: what a run of `DISPATCH` sends, by whether it completed; a stopped one left `RES` and the counters. -/
theorem dispatchOutcomeCodes : Obligations.DispatchOutcomeCodes := by
  intro s t hs hexec
  have hsends : s.OutcomeSends (opBody .dispatch s) := opDispatch_outcomeSends s
  have hcounters := opBody_counters .dispatch s
  have hrow := opBody_row .dispatch s
  have hkept := opBody_fault .dispatch s
  cases hrun : opBody .dispatch s with
  | done code u =>
    rw [hrun] at hsends hkept
    have hclear : u.fault = 0#8 := hkept.trans hs.1
    obtain rfl := Host.Outcome.next.inj ((exec_of_opBody_done hs rfl hrun).symm.trans hexec)
    exact ⟨fun _ => hsends, fun hfault => absurd hclear hfault⟩
  | raised f u =>
    rw [hrun] at hsends hcounters hrow
    obtain rfl := Host.Outcome.next.inj ((exec_of_opBody_stopped hs rfl hrun).symm.trans hexec)
    obtain ⟨rfl, htxlog⟩ := hsends
    obtain ⟨hipid, hseq⟩ := hcounters
    have hrow : u = opRow .dispatch s u := hrow
    have hres : u.res = s.res := (congrArg State.res hrow).trans rfl
    exact ⟨fun hclear => absurd hclear (Fault.code_ne_zero .bufferBounds), fun _ => ⟨rfl, htxlog, hres, hipid, hseq⟩⟩

end Sys2Proof.Proofs
end

section
/-! PROOFS. Faults and exceptional conditions (60_exceptions.md): a step is total, a fault stops an operation before it has written
anything, a faulted or idle engine holds its state, and a receive at the edge of the device's contract. -/

namespace Sys2Proof.Machine

open Sys2Proof.Claims

/-! ### What a stopped operation has written (R292, R294) -/

/-- A run that stops at a fault stops in `s`; of one that completes nothing is said. -/
def Run.StopsIn (s : State) : Run → Prop
  | .done _ _ => True
  | .raised _ u => u = s

theorem Run.StopsIn.eq {s u : State} {f : Fault} {r : Run} (h : r.StopsIn s) (hr : r = .raised f u) : u = s := by
  subst hr
  exact h

theorem opCksum_stopsIn (kind : Kind) (off len : U16) (s : State) : (opCksum kind off len s).StopsIn s := by
  rcases opCksum_cases kind off len s with ⟨-, -, h⟩ | ⟨-, -, -, h⟩ | ⟨-, -, h⟩
  · rw [h]; exact rfl
  · rw [h]; exact rfl
  · rw [h]; exact trivial

/-- Every operation but `DISPATCH` makes its checks before its first write (R294). -/
theorem opBody_stopsIn {i : Instr} (hi : i ≠ .dispatch) (s : State) : (opBody i s).StopsIn s := by
  cases i with
  | dispatch => exact absurd rfl hi
  | cksumIp off len => exact opCksum_stopsIn .ip off len s
  | cksumUdp off len => exact opCksum_stopsIn .udp off len s
  | cksumTcp off len => exact opCksum_stopsIn .tcp off len s
  | icmpReply len =>
    show (opIcmpReply len s).StopsIn s
    rcases opIcmpReply_cases len s with ⟨-, h⟩ | ⟨-, -, h⟩ | ⟨-, -, h⟩
    · rw [h]; exact rfl
    · rw [h]; exact rfl
    · rw [h]; exact trivial
  | udpReply sport data =>
    show (opUdpReply sport data s).StopsIn s
    rcases opUdpReply_cases sport data s with ⟨-, h⟩ | ⟨-, h⟩
    · rw [h]; exact rfl
    · rw [h]; exact trivial
  | tcpAck =>
    show (opTcpAck s).StopsIn s
    rcases opTcpAck_cases s with ⟨-, h⟩ | ⟨-, h⟩
    · rw [h]; exact trivial
    · rw [h]; exact rfl
  | tcpAckdata dlen =>
    show (opTcpAckdata dlen s).StopsIn s
    rcases opTcpAckdata_cases dlen s with ⟨-, h⟩ | ⟨-, h⟩
    · rw [h]; exact rfl
    · rw [h]; exact trivial
  | tcpClient dmac dip dport sport flags mss clrack ackadv dlen =>
    show (opTcpClient dmac dip dport sport flags mss clrack ackadv dlen s).StopsIn s
    rcases opTcpClient_cases dmac dip dport sport flags mss clrack ackadv dlen s with ⟨-, h⟩ | ⟨-, h⟩
    · rw [h]; exact rfl
    · rw [h]; exact trivial
  | fill pos text =>
    show (opFill pos text s).StopsIn s
    rcases opFill_cases pos text s with ⟨-, h⟩ | ⟨-, h⟩
    · rw [h]; exact rfl
    · rw [h]; exact trivial
  | sesPoff =>
    show (opSesPoff s).StopsIn s
    rcases opSesPoff_cases s with ⟨-, h⟩ | ⟨-, h⟩
    · rw [h]; exact trivial
    · rw [h]; exact rfl
  | init | clsArp | clsIp4 | clsArprply | arpReply | arpReq | tcpSynack | sesDerive | recv => exact trivial

/-- An operation other than `DISPATCH` that leaves `FAULT` not 0 did nothing but raise (R292): its guard, or its body, stopped in
the state it found. -/
theorem exec_eq_raise {i : Instr} {s t : State} (hi : i ≠ .dispatch) (hclear : s.fault = 0#8) (hexec : exec i s = .next t)
    (hfault : t.fault ≠ 0#8) : ∃ f, t = raise f s := by
  rcases exec_cases hexec with ⟨hs, -⟩ | ⟨-, -, rfl⟩ | ⟨-, -, rfl⟩
  · exact absurd hclear hs
  · exact ⟨_, rfl⟩
  · have hkept := opBody_fault i s
    cases hrun : opBody i s with
    | done v u =>
      rw [hrun] at hkept hfault
      exact absurd (Eq.trans hkept hclear) hfault
    | raised f u =>
      obtain rfl := (opBody_stopsIn hi s).eq hrun
      exact ⟨f, rfl⟩

/-! ### A faulted engine (R293) -/

theorem exec_faulted (i : Instr) {s : State} (h : s.fault ≠ 0#8) : exec i s = .next s := by
  rw [exec_eq, if_pos (s.faulted_iff.2 h)]

theorem step_faulted {s : State} {c : List Byte} {rest : List (List Byte)} (h : s.fault ≠ 0#8) (hc : s.cmds = c :: rest) :
    step s = .next (s.withCommands rest).respond := by
  cases hd : decode c with
  | error e => rw [step_illegal hc hd, illegal_eq_raise, raise_of_faulted _ (s := s.withCommands rest) h]
  | ok i => exact step_decoded hc hd (exec_faulted i (s := s.withCommands rest) h)

/-! ### A receive at the edge of the device's contract (R305) -/

/-- An exhausted stream delivers the empty frame. -/
theorem State.arriving_of_exhausted {s : State} (hrx : s.rx = []) : s.arriving = [] := by
  rw [State.arriving, hrx]
  exact deliverable_of_le (Nat.zero_le _)

theorem State.linkReceive_of_exhausted {s : State} (hrx : s.rx = []) :
    s.linkReceive = { s with rxlen := 0#16, sesv := false } := by
  have hrest : s.rx.tail = s.rx := by rw [hrx, List.tail_nil]
  rw [State.linkReceive, State.arriving_of_exhausted hrx, hrest]
  rfl

/-- `RECV` with the frame the device delivers, whatever the stream holds (R265). -/
theorem exec_recv_arriving {s : State} (hs : Ready s) :
    ∃ t, exec .recv s = .next t ∧
      t = { s with buf := t.buf, rxlen := u16 s.arriving.length, sesv := false, res := u16 s.arriving.length, rx := s.rx.tail } ∧
      ∀ a, t.buf.rd a = (s.arriving[a]?).getD (s.buf.rd a) :=
  ⟨_, exec_recv hs, rfl, s.linkReceive_rd_getD⟩

end Sys2Proof.Machine

namespace Sys2Proof.Proofs

open Sys2Proof.Machine Sys2Proof.Claims

/-- Settles O9: no command waiting, a command that is an error of the decoder, or an operation, and `exec` always answers a next
state. -/
theorem stepAlwaysAnswersNext : Obligations.StepAlwaysAnswersNext := by
  intro s
  cases hc : s.cmds with
  | nil => exact ⟨_, step_idle hc⟩
  | cons c rest =>
    cases hd : decode c with
    | error e => exact ⟨_, step_illegal hc hd⟩
    | ok i => exact ⟨_, step_decoded hc hd (exec_eq i _)⟩

/-- Settles O12: such an operation only raised a fault in the state it found, and the codes end at 6. -/
theorem faultingOperationChangesOnlyFault : Obligations.FaultingOperationChangesOnlyFault := by
  intro i s t hi hclear hexec hfault
  obtain ⟨f, rfl⟩ := exec_eq_raise hi hclear hexec hfault
  rw [raise_of_clear f hclear]
  exact ⟨rfl, f.code_le⟩

/-- Settles O26: an exhausted stream delivers the empty frame; of a longer frame the device delivers at most `CAP` bytes. -/
theorem recvBeyondStream : Obligations.RecvBeyondStream := by
  intro s hs
  refine ⟨fun hrx => ?_, fun f rest hrx _ => ?_⟩
  · rw [exec_recv hs, State.linkReceive_of_exhausted hrx]
  · obtain ⟨t, hexec, hstate, hbuf⟩ := exec_recv_arriving hs
    rw [hrx, List.tail_cons] at hstate
    exact ⟨s.arriving, t, hexec, s.arriving_length, hstate, hbuf⟩

/-- Settles O7: a step does nothing without a command. -/
theorem idleEngineHoldsState : Obligations.IdleEngineHoldsState := fun _ => step_idle

/-- Settles O10: the check of `FAULT` comes first, for a command that decodes and for one that does not. -/
theorem faultedEngineRefuses : Obligations.FaultedEngineRefuses := fun _ hfault =>
  ⟨fun i => exec_faulted i hfault, fun _ _ hc => step_faulted hfault hc⟩

end Sys2Proof.Proofs
end

section
/-! PROOFS. Reset and hazards (70_reset_and_hazards.md): how often an operation runs before a counter it advances repeats (R343). -/

namespace Sys2Proof.Machine

open Sys2Proof.Claims

/-! ### Executing an operation again and again -/

theorem repeated_succ {i : Instr} {s t : State} (h : exec i s = .next t) (k : Nat) :
    repeated i (k + 1) s = repeated i k t := by
  simp only [repeated, h]

/-- Where one execution keeps `P` and advances `counter` by `d`, `k` executions advance it by `k * d`. -/
theorem repeated_advances {i : Instr} {P : State → Prop} {w d : Nat} {counter : State → BitVec w}
    (hstep : ∀ s, P s → ∃ t, exec i s = .next t ∧ P t ∧ counter t = counter s + BitVec.ofNat w d) (k : Nat) {s : State}
    (hs : P s) : ∃ t, repeated i k s = some t ∧ counter t = counter s + BitVec.ofNat w (k * d) := by
  induction k generalizing s with
  | zero => exact ⟨s, rfl, by simp⟩
  | succ k ih =>
    obtain ⟨t, hexec, ht, hcount⟩ := hstep s hs
    obtain ⟨u, hrun, htotal⟩ := ih ht
    refine ⟨u, (repeated_succ hexec k).trans hrun, ?_⟩
    calc counter u = counter s + (BitVec.ofNat w d + BitVec.ofNat w (k * d)) := by rw [htotal, hcount, BitVec.add_assoc]
      _ = counter s + BitVec.ofNat w ((k + 1) * d) := by rw [← BitVec.ofNat_add, Nat.succ_mul, Nat.add_comm d]

/-- A counter of `w` bits repeats when it has advanced by a multiple of `2 ^ w`. -/
theorem add_ofNat_eq_self_iff {w : Nat} (x : BitVec w) (n : Nat) : x + BitVec.ofNat w n = x ↔ n % 2 ^ w = 0 := by
  rw [BitVec.add_right_eq_self, ← BitVec.toNat_inj, BitVec.toNat_ofNat, BitVec.toNat_ofNat, Nat.zero_mod]

/-- Such a counter is back after `k` executions exactly when `2 ^ w` divides `k * d`. -/
theorem repeated_wraps {i : Instr} {P : State → Prop} {w d : Nat} {counter : State → BitVec w}
    (hstep : ∀ s, P s → ∃ t, exec i s = .next t ∧ P t ∧ counter t = counter s + BitVec.ofNat w d) (k : Nat) {s : State}
    (hs : P s) : ∃ t, repeated i k s = some t ∧ (counter t = counter s ↔ k * d % 2 ^ w = 0) := by
  obtain ⟨t, hrun, hcount⟩ := repeated_advances hstep k hs
  exact ⟨t, hrun, by rw [hcount, add_ofNat_eq_self_iff]⟩

/-! ### The two operations that advance a counter whatever the frame (R22) -/

/-- `TCP.SYNACK` leaves an engine that can execute it again, `SEQ` advanced by `SEQ_STEP` (R220). -/
theorem exec_tcpSynack_seq {s : State} (hs : Ready s) :
    ∃ t, exec .tcpSynack s = .next t ∧ Ready t ∧ t.cfg = s.cfg ∧ t.seq = s.seq + s.cfg.seqStep := by
  obtain ⟨-, t, hexec, hrow, -⟩ := Proofs.synAckSendsHandshake s hs
  refine ⟨t, hexec, ?_⟩
  rw [hrow]
  exact ⟨hs, rfl, rfl⟩

/-- `TCP.CLIENT` leaves an engine in which the same segment fits again, `IPID` advanced by 1 (R235). -/
theorem exec_tcpClient_ipid {s : State} (dmac : Mac) (dip : Ip4) (dport sport : U16) (flags : Byte) {mss : Bool} (clrack : Bool)
    (ackadv : U16) {dlen : U16} (hs : Ready s) (hcap : 54 + (if mss then 4 else 0) + dlen.toNat ≤ s.cap) :
    ∃ t, exec (.tcpClient dmac dip dport sport flags mss clrack ackadv dlen) s = .next t ∧ Ready t ∧ t.cfg = s.cfg ∧
      t.ipid = s.ipid + 1#16 := by
  obtain ⟨-, hfits, -⟩ := Proofs.clientSendsSegment dmac dip dport sport flags mss clrack ackadv dlen s hs
  obtain ⟨t, hexec, hrow, -⟩ := hfits hcap
  refine ⟨t, hexec, ?_⟩
  rw [hrow]
  exact ⟨hs, rfl, rfl⟩

end Sys2Proof.Machine

namespace Sys2Proof.Proofs

open Sys2Proof.Machine Sys2Proof.Claims

/-- Settles O23: each execution leaves the engine ready for the next, with the counter advanced by 2 of 256 or by 1 of 65536. -/
theorem countersWrap : Obligations.CountersWrap := by
  constructor
  · intro s k hs hstep
    have hsynack (u : State) (hu : Ready u ∧ u.cfg.seqStep = 2#8) :
        ∃ t, exec .tcpSynack u = .next t ∧ (Ready t ∧ t.cfg.seqStep = 2#8) ∧ t.seq = u.seq + BitVec.ofNat 8 2 := by
      obtain ⟨hready, htwo⟩ := hu
      obtain ⟨t, hexec, ht, hcfg, hseq⟩ := exec_tcpSynack_seq hready
      exact ⟨t, hexec, ⟨ht, by rw [hcfg, htwo]⟩, by rw [hseq, htwo]⟩
    obtain ⟨t, hrun, hwrap⟩ := repeated_wraps hsynack k ⟨hs, hstep⟩
    exact ⟨t, hrun, hwrap.trans (by omega)⟩
  · intro s k dmac dip dport sport flags mss clrack ackadv dlen hs hcap
    have hclient (u : State) (hu : Ready u ∧ u.cfg = s.cfg) :
        ∃ t, exec (.tcpClient dmac dip dport sport flags mss clrack ackadv dlen) u = .next t ∧ (Ready t ∧ t.cfg = s.cfg) ∧
          t.ipid = u.ipid + BitVec.ofNat 16 1 := by
      obtain ⟨hready, hsame⟩ := hu
      have hfits : 54 + (if mss then 4 else 0) + dlen.toNat ≤ u.cap := by rwa [State.cap, hsame]
      obtain ⟨t, hexec, ht, hcfg, hipid⟩ := exec_tcpClient_ipid dmac dip dport sport flags clrack ackadv hready hfits
      exact ⟨t, hexec, ⟨ht, hcfg.trans hsame⟩, hipid⟩
    obtain ⟨t, hrun, hwrap⟩ := repeated_wraps hclient k ⟨hs, rfl⟩
    exact ⟨t, hrun, hwrap.trans (by omega)⟩

end Sys2Proof.Proofs
end
